-- ==== Sys2Proof/Word.lean ====
section
/-! DEFINITION. The word types of the CAT25 SPI command sequencer (spec/00_scope.md R11, R12). -/

namespace Sys2Proof

/-- A byte: a wire byte, a data byte, a command code (R11, R12). -/
abbrev Byte := BitVec 8

/-- A 32-bit host register value, SPI clock or time reading (R8 `TIMER_W` = 32, R11). -/
abbrev Word := BitVec 32

end Sys2Proof
end

