-- ==== Sys2Proof/Config.lean ====
section
/-! DEFINITION. What an implementation fixes (spec/00_scope.md R8) and the free values: the draws of the
environment and the contents the spec leaves unspecified.

The parameters are a RECORD, not constants: a statement about every state then holds for every profile. -/

namespace Sys2Proof

/-- `SR_LAYOUT` (10_state.md R43, R8): the bit positions of the status-register fields other than RDY.
RDY is bit 0 in every layout (R44). -/
structure SrLayout where
  wpen : Fin 8
  ipl  : Fin 8
  lip  : Fin 8
  bp1  : Fin 8
  bp0  : Fin 8
  wel  : Fin 8
  deriving DecidableEq, Repr

/-- The default layout of R43: WPEN 7, IPL 6, LIP 4, BP 3:2, WEL 1. -/
def SrLayout.standard : SrLayout := ⟨7, 6, 4, 3, 2, 1⟩

/-- The static parameters of R8, fixed at construction; no command writes one. `TIMER_W` = 32 is the
width of `Word`. -/
structure Config where
  /-- `CAP`: total addressable bytes of the EEPROM. -/
  cap : Nat
  /-- `P`: the page size in bytes. -/
  page : Nat
  /-- `TWC_MAX_US` (OPEN, 92 D16). -/
  twcMaxUs : Nat
  /-- `DEFAULT_CLOCK_HZ` (OPEN, 92 D17). -/
  defaultClockHz : Word
  /-- `DUMMY_TX` (30_encoding.md R133). -/
  dummyTx : Byte
  /-- `BUF_BYTES` (OPEN, 92 D9). -/
  bufBytes : Nat
  /-- `HAS_UPDATE` (92 D38). -/
  hasUpdate : Bool
  /-- `SR_LAYOUT` (92 D22). -/
  srLayout : SrLayout
  /-- `XFER_MAY_FAIL` (92 D23). -/
  xferMayFail : Bool
  /-- `POLL_GAP_US` (OPEN, 92 D35); no rule depends on it. -/
  pollGapUs : Nat
  /-- `HOST_BASE` (OPEN, 92 D3). -/
  hostBase : Nat
  deriving DecidableEq, Repr

/-- The profile of the source's one concrete scenario, CAP = 0x8000 and P = 64, with the values 95_test_vectors.md
uses for its vectors (TWC_MAX_US = 5000, BUF_BYTES = 256) and the values R8 fixes. DESIGN CHOICE (log 2): the OPEN
parameters have no value in the spec; every statement is about every configuration. -/
def Config.standard : Config where
  cap := 0x8000
  page := 64
  twcMaxUs := 5000
  defaultClockHz := 1
  dummyTx := 0x00
  bufBytes := 256
  hasUpdate := true
  srLayout := SrLayout.standard
  xferMayFail := true
  pollGapUs := 0
  hostBase := 0

/-! ### Free values. None has a body: nothing in Lean can evaluate one. -/

/-- The rx byte of the n-th draw the environment makes on its own (20_memory.md R92, 93 U5). -/
opaque Config.freeRx : Nat → Byte

/-- The ok flag of the n-th draw (20_memory.md R92, 93 U5). -/
opaque Config.freeOk : Nat → Bool

/-- The time reading of the n-th draw (41_status.md R197, 93 U6). -/
opaque Config.freeTime : Nat → Word

/-- BUF byte i after the e-th reset, before anything writes it (10_state.md R46, R56, 93 U1). -/
opaque Config.freeBuf : Nat → Nat → Byte

/-- EEPROM array byte a of the reference responder where nothing has given it a value (20_memory.md R100;
91 N10: no power-up array contents may be assumed). -/
opaque Config.freeArray : Nat → Byte

/-- Whether the chip heard the byte of a failed transfer, at the n-th draw (60_exceptions.md R306, 93 U29). -/
opaque Config.freeHeard : Nat → Bool

/-- Whether the array byte a of an unspecified range is the new one, at the n-th draw; else it is the old one (20_memory.md
R88, 70_reset_and_hazards.md R341, 93 U3, U4). -/
opaque Config.freeNew : Nat → Nat → Bool

/-- The chip's WEL after a reset that abandoned a command, at the n-th draw (70_reset_and_hazards.md R341, 93 U4). -/
opaque Config.freeWel : Nat → Bool

/-- The chip's WIP after such a reset (R341, 93 U4). -/
opaque Config.freeWip : Nat → Bool

/-- The number of busy polls the chip has left after such a reset, none for a chip that stays busy (R341, 93 U4). -/
opaque Config.freeBusyLeft : Nat → Option Nat

end Sys2Proof
end

