-- ==== Sys2Proof/Machine/State.lean ====
section
/-! DEFINITION. The state of the machine (spec/10_state.md), the environment it is driven by (spec/00_scope.md R14, R18),
its stops, and the state after reset. All plain data. -/

namespace Sys2Proof.Machine

/-! ### Memory -/

/-- A byte memory: (address, byte) pairs, addresses strictly rising. An unlisted address holds NO stored value; what a
read of it answers is unspecified (10_state.md R46, R56, 93 U1) and is a free value (log 4). -/
abbrev Memory := List Host.Cell

/-! ### Error codes (60_exceptions.md R300, R310) -/

/-- The error codes of STATUS.ERR. -/
inductive ErrCode where
  | none
  | precondition
  | timeout
  | bus
  | notInit
  | illegalCmd
  | bufRange
  deriving DecidableEq, Repr

/-- The causes of STATUS.FCAUSE (R310). -/
inductive Cause where
  | notInit
  | illegalCmd
  | bufRange
  | busyAccess
  deriving DecidableEq, Repr

/-! ### The wire (00_scope.md R14, 10_state.md R50, R51, R55) -/

/-- The chip-select line: not driven, driven low (selected), driven high (R51). -/
inductive CsLine where
  | z
  | low
  | high
  deriving DecidableEq, Repr

/-- The order of the bits of a byte on the wire (R50). -/
inductive BitOrder where
  | msbFirst
  | lsbFirst
  deriving DecidableEq, Repr

/-- An SPI mode: clock polarity and phase (R50). -/
structure SpiMode where
  cpol : Bool
  cpha : Bool
  deriving DecidableEq, Repr

/-- One event of the wire trace (R14, R55). -/
inductive WireEvent where
  /-- `CS(0)` (level false) or `CS(1)` (level true). -/
  | cs (level : Bool)
  /-- `CSZ`. -/
  | csz
  /-- `BEGIN(clk, MSB_FIRST, MODE0)`. -/
  | beginTxn (clk : Word) (order : BitOrder) (mode : SpiMode)
  /-- `END`. -/
  | endTxn
  /-- `XFER(tx, rx, ok)`. -/
  | xfer (tx rx : Byte) (ok : Bool)
  /-- `TIME(t)`. -/
  | time (t : Word)
  /-- `YIELD`. -/
  | yield
  deriving DecidableEq, Repr

/-- What the transport answers to one Xfer. -/
structure Answer where
  rx : Byte
  ok : Bool
  deriving DecidableEq, Repr

/-! ### Sequencer phase (10_state.md R36) -/

/-- Where WaitForReady returns: to the READ frame of a read command, to the WREN frame of WritePageSeq, or to the compare
frame of UpdatePageSeq (41_status.md R199). -/
inductive WaitRet where
  | read
  | write
  | compare
  deriving DecidableEq, Repr

/-- Which frame of the pseudocode is being sent: STATUS_FRAME, POLL, WREN_FRAME (of WRITE_ENABLE, or of WritePageSeq),
WRDI_FRAME, READ_FRAME, CMP_FRAME, WRITE_FRAME. -/
inductive FrameUse where
  | status
  | poll (ret : WaitRet)
  | wrenCmd
  | wrenSeq
  | wrdi
  | read
  | compare
  | write
  deriving DecidableEq, Repr

/-- The program points of StartCommand, the data phase and EndCommand (30_encoding.md R126): each is the point right
before one wire primitive. `failed` says that the frame is being closed by XferChk after a failed transfer. -/
inductive FramePoint where
  | csLow
  | txnBegin
  | opcode
  | addr (j : Nat)
  | data
  | csHigh (failed : Bool)
  | txnEnd (failed : Bool)
  deriving DecidableEq, Repr

/-- The phase. `idle`: no command runs. `check`: before a command's first line. `pin`: after the pin step of INIT or
DEINIT. `waitT0`, `pollT`, `pollY`: the first Now, the time check and the Yield of WaitForReady. `complete`: right before
the top-level return. `failing c`: right before `raise Err(c)`. -/
inductive Phase where
  | idle
  | check
  | pin
  | waitT0 (ret : WaitRet)
  | pollT (ret : WaitRet)
  | pollY (ret : WaitRet)
  | frame (use : FrameUse) (pt : FramePoint)
  | complete
  | failing (c : ErrCode)
  deriving DecidableEq, Repr

/-! ### The pieces of State -/

/-- The host registers that store a value (R32). CMD stores none (it reads 0, R33); SR_FIELDS and STATUS are computed
views (R39, R45), of which `err` is the stored field STATUS.ERR. -/
structure Regs where
  addr   : Word
  len    : Word
  wdata  : Byte
  clkcfg : Word
  result : Word
  rdata  : Byte
  err    : ErrCode
  deriving DecidableEq, Repr

/-- The latched operands (R48). -/
structure Latched where
  code : Byte
  addr : Word
  len  : Word
  data : Byte
  clk  : Word
  deriving DecidableEq, Repr

/-- The cursor state (R49), with the two local bytes of the pseudocode: `sr`, the status byte of ReadSR (41_status.md
R190), and `d`, the data byte of READ_BYTE (42_read.md R222). -/
structure Cursor where
  segAddr   : Nat
  segLen    : Nat
  off       : Nat
  rem       : Nat
  k         : Nat
  i         : Nat
  waitStart : Word
  sr        : Byte
  d         : Byte
  deriving DecidableEq, Repr

/-- One host bus access: an absolute host address and the byte lanes, lowest lane first (20_memory.md R84), or the number
of lanes read. -/
inductive HostOp where
  | write (addr : Nat) (lanes : List Byte)
  | read (addr : Nat) (size : Nat)
  deriving DecidableEq, Repr

/-- Who moves next (R18): the host makes an access; the host repeats RD STATUS until BUSY = 0 (30_encoding.md R144
WAITIDLE); the transport grants or withholds the bus (R53); the block is reset (70_reset_and_hazards.md R340, R341); the
sequencer takes one step. -/
inductive Event where
  | host (op : HostOp)
  | waitIdle
  | bus (granted : Bool)
  | reset
  | seq
  deriving DecidableEq, Repr

/-- The reference responder, the EEPROM chip as the test vectors use it (20_memory.md R100). `srHigh` holds SR bits 7:2.
`busyLeft` and `busyPolls` are none where the spec writes infinity (R107). `heard` holds the tx bytes since CS(0), none
when no frame is open. -/
structure Responder where
  array     : Memory
  wel       : Bool
  wip       : Bool
  pend      : Memory
  busyLeft  : Option Nat
  srHigh    : BitVec 6
  busyPolls : Option Nat
  heard     : Option (List Byte)
  deriving DecidableEq, Repr

/-- The environment, the MODEL's own fields: the schedule of the other agents (empty: the sequencer moves alone), whether
the transport grants the bus, the answers it has ready (over an attached responder, which gives the byte, the ok flags it
has ready), the time readings it has ready, the reference responder when one is attached, the responder's array as the
running write or update command found it (the OLD bytes of 70_reset_and_hazards.md R341), the count of free draws made and
of resets. -/
structure Env where
  sched   : List Event
  busFree : Bool
  answers : List Answer
  times   : List Word
  chip    : Option Responder
  before  : Memory
  draws   : Nat
  epoch   : Nat
  deriving DecidableEq, Repr

/-- The machine. -/
structure State where
  /-- The static configuration (R30 (1)); no step changes it. -/
  cfg : Config
  /-- The host register file (R32). -/
  regs : Regs
  /-- BUF (R46). -/
  buf : Memory
  /-- STATUS.FAULT and STATUS.FCAUSE: the first recorded fault (60_exceptions.md R310), none while FAULT = 0. -/
  fault : Option Cause
  /-- `initDone`, read as STATUS.INIT (R47). -/
  initDone : Bool
  /-- `clockHz` (R47). -/
  clockHz : Word
  /-- The chip-select line's output state (R51). -/
  cs : CsLine
  /-- The phase (R36); STATUS.BUSY = 1 exactly when it is not idle. -/
  phase : Phase
  /-- The latched operands (R48). -/
  lat : Latched
  /-- The cursor (R49). -/
  cur : Cursor
  /-- The wire trace, oldest event first (R55). -/
  trace : List WireEvent
  /-- The byte lanes the last host read answered: the host's side of the bus, the MODEL's own field. -/
  hostData : List Byte
  /-- The environment, the MODEL's own field. -/
  env : Env
  deriving DecidableEq, Repr

/-! ### Stops -/

/-- How the machine stops. No run from a state that meets `Inv` (Safety.lean) reaches either. -/
inductive Fault where
  /-- Raised by every meaning run at a phase that is not one of its program points, and by `step` where the phase names
  no instruction. SAFE: the model stops, and nothing is concluded. -/
  | notAtProgramPoint
  /-- Raised by the READ and WRITE frames for a BUF index ≥ BUF_BYTES, which does not exist (20_memory.md R81).
  SAFE: the model stops, and nothing is concluded. -/
  | bufIndex
  deriving DecidableEq, Repr

/-- What the model gives no meaning. -/
inductive Refusal where
  /-- An instruction without a meaning yet, raised by `exec` alone. SAFE. -/
  | notModelled (mnemonic : String)
  /-- Raised by WRSR, whose frame the spec does not give (30_encoding.md R131, 93 U10). SAFE. -/
  | wrsrFormatNotSpecified
  /-- Raised by `step` on an invalid configuration (00_scope.md R9). SAFE. -/
  | invalidConfiguration
  deriving DecidableEq, Repr

/-- The outcome of a meaning. -/
abbrev Res := Host.Outcome State Fault Refusal

/-! ### Reset -/

/-- The state of the block after reset (R56, 70_reset_and_hazards.md R340), for a configuration and an environment. The
latched operands and the cursor, which the spec leaves unspecified and unread, are 0 (DESIGN CHOICE, log 5). -/
def State.afterReset (cfg : Config) (env : Env) : State where
  cfg := cfg
  regs := { addr := 0, len := 0, wdata := 0, clkcfg := 0, result := 0, rdata := 0, err := .none }
  buf := []
  fault := none
  initDone := false
  clockHz := 0
  cs := .z
  phase := .idle
  lat := { code := 0, addr := 0, len := 0, data := 0, clk := 0 }
  cur := { segAddr := 0, segLen := 0, off := 0, rem := 0, k := 0, i := 0, waitStart := 0, sr := 0, d := 0 }
  trace := []
  hostData := []
  env := env

/-- An environment with nothing in it: no other agent is about to move, the bus is granted, no answer or reading is
ready (each is then a free draw), and no responder is attached (DESIGN CHOICE, log 6). -/
def Env.quiet : Env where
  sched := []
  busFree := true
  answers := []
  times := []
  chip := none
  before := []
  draws := 0
  epoch := 0

/-- The machine right after reset. -/
def State.reset : State := State.afterReset Config.standard Env.quiet

end Sys2Proof.Machine
end

