-- ==== Sys2Proof/Machine/Flags.lean ====
section
/-! DEFINITION. The computed status views: the STATUS word and the status-register decoder
(spec/10_state.md R39, R44, R45; spec/60_exceptions.md R300, R310). -/

namespace Sys2Proof.Machine

/-- The code of an error in STATUS.ERR (R300). -/
def ErrCode.code : ErrCode → BitVec 3
  | .none         => 0
  | .precondition => 1
  | .timeout      => 2
  | .bus          => 3
  | .notInit      => 4
  | .illegalCmd   => 5
  | .bufRange     => 6

/-- The code of a fault cause in STATUS.FCAUSE (R300, R310). -/
def Cause.code : Cause → BitVec 3
  | .notInit    => 4
  | .illegalCmd => 5
  | .bufRange   => 6
  | .busyAccess => 7

/-- STATUS.FCAUSE: 0 while FAULT = 0 (R39). -/
def fcauseBits : Option Cause → BitVec 3
  | none => 0
  | some c => c.code

/-- STATUS.BUSY: 1 while a command runs (R36, R39). -/
def State.busy (s : State) : Bool :=
  match s.phase with
  | .idle => false
  | .check | .pin | .waitT0 _ | .pollT _ | .pollY _ | .frame _ _ | .complete | .failing _ => true

/-- The STATUS register (R39): 31:11 reserved, 10:8 FCAUSE, 7 reserved, 6:4 ERR, 3 reserved, 2 FAULT, 1 INIT, 0 BUSY. -/
def State.statusWord (s : State) : Word :=
  0#21 ++ fcauseBits s.fault ++ 0#1 ++ s.regs.err.code ++ 0#1 ++
    BitVec.ofBool s.fault.isSome ++ BitVec.ofBool s.initDone ++ BitVec.ofBool s.busy

/-- `Ready(sr)` (R44): only bit 0 decides. -/
def chipReady (sr : Byte) : Bool := !sr.getLsbD 0

/-- `Decode(s)` (R45) for a layout: 7 WPEN, 6 IPL, 5 LIP, 4:3 BP, 2 WEL, 1 RDY, 0 READY. -/
def srDecode (l : SrLayout) (sr : Byte) : Word :=
  0#24 ++ BitVec.ofBool (sr.getLsbD l.wpen) ++ BitVec.ofBool (sr.getLsbD l.ipl) ++ BitVec.ofBool (sr.getLsbD l.lip) ++
    BitVec.ofBool (sr.getLsbD l.bp1) ++ BitVec.ofBool (sr.getLsbD l.bp0) ++ BitVec.ofBool (sr.getLsbD l.wel) ++
    BitVec.ofBool (sr.getLsbD 0) ++ BitVec.ofBool (chipReady sr)

/-- The SR_FIELDS register: a combinational function of RDATA (R45). -/
def State.srFields (s : State) : Word := srDecode s.cfg.srLayout s.regs.rdata

end Sys2Proof.Machine
end

