-- ==== Sys2Proof/Machine/Memory.lean ====
section
/-! DEFINITION. The operations over a byte memory (spec/00_scope.md R13, spec/20_memory.md R80, R81). -/

namespace Sys2Proof.Machine

/-- The stored byte at an address, none where nothing is stored. -/
def Memory.get? : Memory → Nat → Option Byte
  | [], _ => none
  | (b, v) :: m, a => if a = b then some v else Memory.get? m a

/-- Store one byte, keeping the addresses strictly rising. -/
def Memory.set : Memory → Nat → Byte → Memory
  | [], a, v => [(a, v)]
  | (b, w) :: m, a, v =>
    if a < b then (a, v) :: (b, w) :: m
    else if a = b then (a, v) :: m
    else (b, w) :: Memory.set m a v

/-- Every address of a memory is above `lo`. -/
def Memory.above (lo : Nat) : Memory → Bool
  | [] => true
  | (a, _) :: _ => decide (lo < a)

/-- The canonical form: addresses strictly rising. An unlisted address holds no stored value, and no entry of the list is
"no value", so the list is determined by what `get?` answers. -/
def Memory.wf : Memory → Bool
  | [] => true
  | (a, _) :: m => Memory.above a m && Memory.wf m

/-- Store a list of bytes, in order. -/
def Memory.setAll : Memory → Memory → Memory
  | m, [] => m
  | m, (a, v) :: l => Memory.setAll (m.set a v) l

/-- The bytes `l`, at rising addresses from `a` on. -/
def bytesFrom : Nat → List Byte → Memory
  | _, [] => []
  | a, b :: l => (a, b) :: bytesFrom (a + 1) l

end Sys2Proof.Machine
end

