-- ==== Sys2Proof/Syntax.lean ====
section
/-! DEFINITION. The instructions: one constructor per row of spec/opcode_table.json.

The hardware has two encodings (30_encoding.md): sixteen HOST COMMANDS, started by a write to CMD (R140), and eight
WIRE OPCODES, the first byte of an SPI frame (R120). No row has an operand field: a host command's operands are the
latched registers (R141, R143), a frame's address and data are those of the running command (R126 to R130). -/

namespace Sys2Proof

inductive Instr where
  -- host commands, 30_encoding.md R140
  | init
  | deinit
  | getCapacity
  | getPageSize
  | readStatus
  | isReady
  | writeEnable
  | writeDisable
  | readByte
  | readBlock
  | writeByte
  | writeBlock
  | writePage
  | updateByte
  | updateBlock
  | updatePage
  -- wire opcodes, 30_encoding.md R120
  | wireRead
  | wireReadA8
  | wireWrite
  | wireWriteA8
  | wireRdsr
  | wireWren
  | wireWrdi
  | wireWrsr
  deriving DecidableEq, Repr

end Sys2Proof
end

