-- ==== Sys2Proof/Decode.lean ====
section
/-! DEFINITION. The two decoders, their encoder, the address encoder and the frame formats (spec/30_encoding.md). -/

namespace Sys2Proof

/-! ### Host command codes (R140, R142) -/

/-- The instruction a CMD code names, none for an illegal code (R140, R142). -/
def decodeHost (code : Byte) : Option Instr :=
  match code with
  | 0x01#8 => some .init
  | 0x02#8 => some .deinit
  | 0x03#8 => some .getCapacity
  | 0x04#8 => some .getPageSize
  | 0x10#8 => some .readStatus
  | 0x11#8 => some .isReady
  | 0x12#8 => some .writeEnable
  | 0x13#8 => some .writeDisable
  | 0x20#8 => some .readByte
  | 0x21#8 => some .readBlock
  | 0x30#8 => some .writeByte
  | 0x31#8 => some .writeBlock
  | 0x32#8 => some .writePage
  | 0x40#8 => some .updateByte
  | 0x41#8 => some .updateBlock
  | 0x42#8 => some .updatePage
  | _ => none

/-! ### Wire opcodes (R120) -/

/-- The frame a first wire byte opens, none for one of the 248 reserved values (R120, R132). -/
def decodeWire (op : Byte) : Option Instr :=
  match op with
  | 0x03#8 => some .wireRead
  | 0x0B#8 => some .wireReadA8
  | 0x02#8 => some .wireWrite
  | 0x0A#8 => some .wireWriteA8
  | 0x05#8 => some .wireRdsr
  | 0x06#8 => some .wireWren
  | 0x04#8 => some .wireWrdi
  | 0x01#8 => some .wireWrsr
  | _ => none

/-- The encoding space of an instruction: the CMD register or the first byte of a frame. -/
inductive Space where
  | host
  | wire
  deriving DecidableEq, Repr

/-- The decoder of one space. -/
def decode (sp : Space) (w : Byte) : Option Instr :=
  match sp with
  | .host => decodeHost w
  | .wire => decodeWire w

/-- Which space an instruction is written in. -/
def Instr.space : Instr → Space
  | .init | .deinit | .getCapacity | .getPageSize | .readStatus | .isReady | .writeEnable | .writeDisable
  | .readByte | .readBlock | .writeByte | .writeBlock | .writePage | .updateByte | .updateBlock | .updatePage => .host
  | .wireRead | .wireReadA8 | .wireWrite | .wireWriteA8 | .wireRdsr | .wireWren | .wireWrdi | .wireWrsr => .wire

/-- The one byte of an instruction (R120, R140). -/
def encode : Instr → Byte
  | .init         => 0x01
  | .deinit       => 0x02
  | .getCapacity  => 0x03
  | .getPageSize  => 0x04
  | .readStatus   => 0x10
  | .isReady      => 0x11
  | .writeEnable  => 0x12
  | .writeDisable => 0x13
  | .readByte     => 0x20
  | .readBlock    => 0x21
  | .writeByte    => 0x30
  | .writeBlock   => 0x31
  | .writePage    => 0x32
  | .updateByte   => 0x40
  | .updateBlock  => 0x41
  | .updatePage   => 0x42
  | .wireRead     => 0x03
  | .wireReadA8   => 0x0B
  | .wireWrite    => 0x02
  | .wireWriteA8  => 0x0A
  | .wireRdsr     => 0x05
  | .wireWren     => 0x06
  | .wireWrdi     => 0x04
  | .wireWrsr     => 0x01

/-- The decoder over words numbered as spec/opcode_table.json numbers them. Every instruction is one byte (bits 7:0);
bits above are not looked at (R33: bits 31:8 of a CMD write are ignored). The table holds BOTH encoding spaces and does
not say which space a word is in: a byte that is a host command code reads as that command, any other byte as a wire
opcode. The four wire rows 0x01 to 0x04 share their byte with a host command and are reached by `decodeWire` alone
(DESIGN CHOICE, log 3). -/
def decodeTableWord (nbits w : Nat) : Option Instr :=
  let b : Byte := BitVec.ofNat 8 (w % 2 ^ nbits)
  match decodeHost b with
  | some i => some i
  | none => decodeWire b

/-! ### Derived configuration constants (00_scope.md R10) -/

/-- `NINE_BIT`: the 9-bit-addressing device class (R10, 92 D10). -/
def Config.nineBit (c : Config) : Bool := decide (256 < c.cap ∧ c.cap ≤ 512)

/-- `NADDR`: address bytes per READ or WRITE frame (R10). -/
def Config.nAddr (c : Config) : Nat :=
  (if 65536 < c.cap then 1 else 0) + (if 512 < c.cap then 1 else 0) + 1

/-- `T_WAIT_US` (R8). -/
def Config.tWaitUs (c : Config) : Nat := c.twcMaxUs + 1000

/-! ### Address encoder and opcode selection (R122, R124, R125) -/

/-- The field a[8k+7:8k] of an address (R12, R122). -/
def addrByte (a k : Nat) : Byte := BitVec.ofNat 8 (a / 2 ^ (8 * k))

/-- `AddrBytes(a)` (R122): most significant byte first (20_memory.md R85). -/
def addrBytes (c : Config) (a : Nat) : List Byte :=
  (if 65536 < c.cap then [addrByte a 2] else []) ++
    ((if 512 < c.cap then [addrByte a 1] else []) ++ [addrByte a 0])

/-- The base opcode bytes the sequencer sends (R120). -/
def opREAD : Byte := 0x03
def opWRITE : Byte := 0x02
def opRDSR : Byte := 0x05
def opWREN : Byte := 0x06
def opWRDI : Byte := 0x04

/-- `WireOp(op, a)` (R124): the alternate opcode carries address bit 8 on a NINE_BIT device. No substitution applies to
RDSR, WREN or WRDI (R125). -/
def wireOp (c : Config) (op : Byte) (a : Nat) : Byte :=
  if c.nineBit = true ∧ (op = opREAD ∨ op = opWRITE) ∧ a.testBit 8 = true then op ||| 0x08 else op

/-- The address a receiver forms from an opcode and its address bytes (20_memory.md R105): most significant byte first,
and bit 8 from bit 3 of the opcode on a NINE_BIT device. -/
def addrOf (c : Config) (op : Byte) (bs : List Byte) : Nat :=
  bs.foldl (fun a b => a * 256 + b.toNat) 0 + (if c.nineBit && op.getLsbD 3 then 256 else 0)

/-! ### Frame formats (R127 to R130) -/

/-- A frame the sequencer sends. -/
inductive Frame where
  | rdsr
  | wren
  | wrdi
  | read (a n : Nat)
  | write (a : Nat) (data : List Byte)
  deriving DecidableEq, Repr

/-- The tx bytes of a frame in order (R127 to R130, R133). -/
def frameBytes (c : Config) : Frame → List Byte
  | .rdsr => [opRDSR, c.dummyTx]
  | .wren => [opWREN]
  | .wrdi => [opWRDI]
  | .read a n => wireOp c opREAD a :: (addrBytes c a ++ List.replicate n c.dummyTx)
  | .write a d => wireOp c opWRITE a :: (addrBytes c a ++ d)

/-- A frame the sequencer may send (R127, R128, 20_memory.md R80, R86). -/
def Frame.wellFormed (c : Config) : Frame → Bool
  | .rdsr | .wren | .wrdi => true
  | .read a n => decide (1 ≤ n ∧ a + n ≤ c.cap)
  | .write a d => decide (1 ≤ d.length ∧ a + d.length ≤ c.cap ∧ a % c.page + d.length ≤ c.page)

/-- The frame a receiver reads from the tx bytes between CS(0) and CS(1); none for a reserved opcode, an alternate
opcode on a device that is not NINE_BIT, WRSR (its format is not specified, R131) or a frame cut short. -/
def parseFrame (c : Config) : List Byte → Option Frame
  | [] => none
  | op :: rest =>
    match decodeWire op with
    | some .wireRdsr => if rest.length = 1 then some .rdsr else none
    | some .wireWren => if rest = [] then some .wren else none
    | some .wireWrdi => if rest = [] then some .wrdi else none
    | some .wireRead => parseRead op rest
    | some .wireReadA8 => if c.nineBit then parseRead op rest else none
    | some .wireWrite => parseWrite op rest
    | some .wireWriteA8 => if c.nineBit then parseWrite op rest else none
    | _ => none
where
  /-- A READ frame after its opcode: NADDR address bytes and at least one receive byte. -/
  parseRead (op : Byte) (rest : List Byte) : Option Frame :=
    if c.nAddr < rest.length then some (.read (addrOf c op (rest.take c.nAddr)) (rest.length - c.nAddr)) else none
  /-- A WRITE frame after its opcode: NADDR address bytes and at least one data byte. -/
  parseWrite (op : Byte) (rest : List Byte) : Option Frame :=
    if c.nAddr < rest.length then some (.write (addrOf c op (rest.take c.nAddr)) (rest.drop c.nAddr)) else none

end Sys2Proof
end

