-- ==== Sys2Proof/WellFormed.lean ====
section
/-! DEFINITION. Well-formed configurations (spec/00_scope.md R8, R9) and instructions (spec/30_encoding.md). -/

namespace Sys2Proof

/-- The valid configurations: the four conditions of R9 and the two lower bounds of R8's table
(`BUF_BYTES` ≥ 1, `DEFAULT_CLOCK_HZ` ≥ 1). P is a power of two exactly when it is 2 to its own binary logarithm. -/
def Config.valid (c : Config) : Bool :=
  decide (1 ≤ c.cap ∧ c.cap ≤ 2 ^ 24 ∧ c.page = 2 ^ Nat.log2 c.page ∧ c.page ≤ c.cap ∧ c.cap % c.page = 0 ∧
    1 ≤ c.bufBytes ∧ c.defaultClockHz ≠ 0)

/-- The instructions a configuration has: the update commands exist when HAS_UPDATE (30_encoding.md R142), the alternate
opcodes on a NINE_BIT device (R124), and WRSR is never sent (R131). -/
def Instr.wellFormed (c : Config) : Instr → Bool
  | .updateByte | .updateBlock | .updatePage => c.hasUpdate
  | .wireReadA8 | .wireWriteA8 => c.nineBit
  | .wireWrsr => false
  | .init | .deinit | .getCapacity | .getPageSize | .readStatus | .isReady | .writeEnable | .writeDisable
  | .readByte | .readBlock | .writeByte | .writeBlock | .writePage
  | .wireRead | .wireWrite | .wireRdsr | .wireWren | .wireWrdi => true

end Sys2Proof
end

