-- ==== Sys2Proof/Machine/Operands.lean ====
section
/-! DEFINITION. Operand assembly: the latched operands as naturals, the page check and the splitter's arithmetic, the
data source of a command, and the opcode, address and length of each frame
(spec/30_encoding.md R141, spec/43_write.md R241 to R245, spec/44_update.md R270). -/

namespace Sys2Proof.Machine

/-! ### Host bus lanes (20_memory.md R84) -/

/-- The four byte lanes of a register value, lowest first. -/
def lanesOf (v : Word) : List Byte :=
  [v.extractLsb' 0 8, v.extractLsb' 8 8, v.extractLsb' 16 8, v.extractLsb' 24 8]

/-- The byte on one lane, 0 where the access has no such lane. -/
def laneAt (l : List Byte) (k : Nat) : Byte := l.getD k 0

/-- The register value on four byte lanes, lowest first. -/
def wordOfLanes (l : List Byte) : Word := laneAt l 3 ++ laneAt l 2 ++ laneAt l 1 ++ laneAt l 0

/-- The bits of a wire byte in the order they are sent (10_state.md R50, 20_memory.md R85). -/
def wireBits (o : BitOrder) (b : Byte) : List Bool :=
  match o with
  | .msbFirst => (List.range 8).map fun k => b.getLsbD (7 - k)
  | .lsbFirst => (List.range 8).map fun k => b.getLsbD k

/-! ### Latched operands (R141) -/

/-- `cAddr` as a natural. -/
def State.cAddr (s : State) : Nat := s.lat.addr.toNat

/-- `cLen` as a natural. -/
def State.cLen (s : State) : Nat := s.lat.len.toNat

/-- The running command. -/
def State.command (s : State) : Option Instr := decodeHost s.lat.code

/-- The update commands (44_update.md). -/
def isUpdate : Option Instr → Bool
  | some .updateByte | some .updateBlock | some .updatePage => true
  | _ => false

/-- The commands whose data byte is `cData` (R222, R243, R272): they do not use BUF. -/
def isByteCommand : Option Instr → Bool
  | some .readByte | some .writeByte | some .updateByte => true
  | _ => false

/-- The commands that write the array (43_write.md, 44_update.md). -/
def writesArray : Option Instr → Bool
  | some .writeByte | some .writeBlock | some .writePage => true
  | i => isUpdate i

/-! ### Ranges (20_memory.md R80, 43_write.md R241) -/

/-- The address space invariant: `a + n ≤ CAP`, without wrap (00_scope.md R11). -/
def inRange (c : Config) (a n : Nat) : Bool := decide (a + n ≤ c.cap)

/-- `PageCheck(a, n)` (R241). -/
def pageCheck (c : Config) (a n : Nat) : Bool := decide (a + n ≤ c.cap ∧ a % c.page + n ≤ c.page)

/-- The length of the first segment (R244 (1)). -/
def firstSegLen (c : Config) (a n : Nat) : Nat := min (c.page - a % c.page) n

/-! ### Data of the running command -/

/-- BUF[i]; where nothing has been stored since reset it is a free value (10_state.md R46, 93 U1). -/
def State.bufByte (s : State) (i : Nat) : Byte := (s.buf.get? i).getD (Config.freeBuf s.env.epoch i)

/-- `s(j)` of the running write or update command: `cData` for the byte commands, BUF[off + j] for the others (R242, R243,
R245); none for a BUF index that does not exist (20_memory.md R81). -/
def State.srcByte (s : State) (j : Nat) : Option Byte :=
  if isByteCommand s.command then some s.lat.data
  else if s.cur.off + j < s.cfg.bufBytes then some (s.bufByte (s.cur.off + j))
  else none

/-- The number of data bytes of the READ frame of a read command (R221, R222). -/
def State.readLen (s : State) : Nat := if isByteCommand s.command then 1 else s.cLen

/-! ### Frames (30_encoding.md R126 to R130) -/

/-- The EEPROM address of a frame: of the range for a read command, of the segment for a compare, of the first byte to
write for a WRITE (R221, R240, R270). -/
def State.frameTarget (s : State) : FrameUse → Nat
  | .read => s.cAddr
  | .compare => s.cur.segAddr
  | .write => s.cur.segAddr + s.cur.k
  | .status | .poll _ | .wrenCmd | .wrenSeq | .wrdi => 0

/-- The base opcode of a frame. -/
def FrameUse.baseOp : FrameUse → Byte
  | .status | .poll _ => opRDSR
  | .wrenCmd | .wrenSeq => opWREN
  | .wrdi => opWRDI
  | .read | .compare => opREAD
  | .write => opWRITE

/-- The opcode byte of a frame: `WireOp` of its base opcode and address (R124, R125). -/
def State.frameOp (s : State) (u : FrameUse) : Byte := wireOp s.cfg u.baseOp (s.frameTarget u)

/-- The address bytes of a frame, none for a frame without an address (R126, R129, R130). -/
def State.frameAddr (s : State) (u : FrameUse) : List Byte :=
  match u with
  | .read | .compare | .write => addrBytes s.cfg (s.frameTarget u)
  | .status | .poll _ | .wrenCmd | .wrenSeq | .wrdi => []

/-- Whether a frame has a data phase: WREN and WRDI have none (R130). -/
def FrameUse.hasData : FrameUse → Bool
  | .status | .poll _ | .read | .compare | .write => true
  | .wrenCmd | .wrenSeq | .wrdi => false

/-- The number of data bytes of a frame, at most (a compare frame ends at the first mismatch, R270). -/
def State.frameLen (s : State) : FrameUse → Nat
  | .status | .poll _ => 1
  | .wrenCmd | .wrenSeq | .wrdi => 0
  | .read => s.readLen
  | .compare => s.cur.segLen
  | .write => s.cur.segLen - s.cur.k

/-- The array bytes that a WRITE frame of the current segment is to write: from its first byte on, the bytes of its data
phase (R240, R270). No other frame writes one. -/
def State.frameRange (s : State) : FrameUse → Memory
  | .write => bytesFrom (s.cur.segAddr + s.cur.k)
      ((List.range (s.cur.segLen - s.cur.k)).filterMap fun j => s.srcByte (s.cur.k + j))
  | .status | .poll _ | .wrenCmd | .wrenSeq | .wrdi | .read | .compare => []

/-- The array bytes that the running command is to write, all of its range (70_reset_and_hazards.md R341): none of a command
that writes nothing, and none at its checks, where no step leaves a block (60_exceptions.md R301). -/
def State.writeRange (s : State) : Memory :=
  match s.phase with
  | .idle | .check => []
  | .pin | .waitT0 _ | .pollT _ | .pollY _ | .frame _ _ | .complete | .failing _ =>
    if writesArray s.command then
      if isByteCommand s.command then [(s.cAddr, s.lat.data)]
      else bytesFrom s.cAddr ((List.range s.cLen).map s.bufByte)
    else []

/-- The frame a wait returns to (41_status.md R199). -/
def WaitRet.use : WaitRet → FrameUse
  | .read => .read
  | .write => .wrenSeq
  | .compare => .compare

end Sys2Proof.Machine
end

