-- ==== Sys2Proof/Machine/Responder.lean ====
section
/-! DEFINITION. The reference responder (spec/20_memory.md R100 to R110): the EEPROM chip as the environment of the test
vectors. It binds nothing: with no responder attached every answer is a draw (R92). -/

namespace Sys2Proof.Machine

/-- The responder at power-up (R100): WEL = 0, WIP = 0, SR bits 7:2 zero. DESIGN CHOICE (log 15): R100 gives no power-up
value of `pend` and `busyLeft`; the model takes the empty list and 0, and no rule reads either while WIP = 0. -/
def Responder.powerUp (array : Memory) (busyPolls : Option Nat) : Responder where
  array := array
  wel := false
  wip := false
  pend := []
  busyLeft := some 0
  srHigh := 0
  busyPolls := busyPolls
  heard := none

/-- A byte of an array; where nothing has given it a value it is a free value (91 N10). -/
def arrayByte (m : Memory) (a : Nat) : Byte := (m.get? a).getD (Config.freeArray a)

/-- An array byte. -/
def Responder.byteAt (r : Responder) (a : Nat) : Byte := arrayByte r.array a

/-- The status byte: SR[7:2], WEL, R (R102). -/
def Responder.statusByte (r : Responder) : Byte := r.srHigh ++ BitVec.ofBool r.wel ++ BitVec.ofBool r.wip

/-- `CS(0)`: a frame opens (R101). -/
def Responder.onCsLow (r : Responder) : Responder := { r with heard := some [] }

/-- The rx byte of the next Xfer, from the tx bytes heard before it (R101, R102, R105, R109). -/
def Responder.answer (c : Config) (r : Responder) : Byte :=
  match r.heard with
  | none => 0xFF
  | some [] => 0xFF
  | some (op :: rest) =>
    match decodeWire op with
    | some .wireRdsr => r.statusByte
    | some .wireRead => readAnswer op rest
    | some .wireReadA8 => if c.nineBit then readAnswer op rest else 0xFF
    | _ => 0xFF
where
  /-- The j-th Xfer after the address bytes answers M[(a + j) mod CAP] (R105); ignored while WIP = 1. -/
  readAnswer (op : Byte) (rest : List Byte) : Byte :=
    if r.wip || decide (rest.length < c.nAddr) then 0xFF
    else r.byteAt ((addrOf c op (rest.take c.nAddr) + (rest.length - c.nAddr)) % c.cap)

/-- The responder hears a tx byte. -/
def Responder.hear (tx : Byte) (r : Responder) : Responder :=
  { r with heard := r.heard.map (· ++ [tx]) }

/-- The write cycle ends (R102): the pending bytes are committed and WEL and WIP clear. -/
def Responder.endCycle (r : Responder) : Responder :=
  { r with array := r.array.setAll r.pend, pend := [], wel := false, wip := false }

/-- The pending page image of a WRITE frame's data bytes from the j-th on (R106): wraps within the page. -/
def Responder.pageImage (page a : Nat) : Nat → List Byte → Memory
  | _, [] => []
  | j, b :: bs => (a - a % page + (a % page + j) % page, b) :: Responder.pageImage page a (j + 1) bs

/-- The end of an RDSR frame (R102): one busy poll fewer, and the cycle ends at none left. -/
def Responder.afterStatus (r : Responder) : Responder :=
  if r.wip then
    match r.busyLeft with
    | none => r
    | some n =>
      let r' := { r with busyLeft := some (n - 1) }
      if n - 1 = 0 then r'.endCycle else r'
  else r

/-- The end of a WRITE frame (R106). -/
def Responder.afterWrite (c : Config) (op : Byte) (rest : List Byte) (r : Responder) : Responder :=
  let data := rest.drop c.nAddr
  if r.wel && !r.wip && decide (data ≠ []) then
    let r' := { r with
      pend := Responder.pageImage c.page (addrOf c op (rest.take c.nAddr)) 0 data
      wip := true
      busyLeft := r.busyPolls }
    if r.busyPolls = some 0 then r'.endCycle else r'
  else r

/-- `CS(1)`: the frame's effect on the chip (R102 to R106, R109). -/
def Responder.onCsHigh (c : Config) (r : Responder) : Responder :=
  let r' := { r with heard := none }
  match r.heard with
  | none => r'
  | some [] => r'
  | some (op :: rest) =>
    match decodeWire op with
    | some .wireRdsr => r'.afterStatus
    | some .wireWren => if r'.wip then r' else { r' with wel := true }
    | some .wireWrdi => if r'.wip then r' else { r' with wel := false }
    | some .wireWrite => r'.afterWrite c op rest
    | some .wireWriteA8 => if c.nineBit then r'.afterWrite c op rest else r'
    | _ => r'

/-! ### Frames cut short and abandoned commands -/

/-- An unspecified range (R88, 93 U3, U4): of the new bytes `l` each is kept or gives way to the old byte, as the n-th draw
has it. -/
def mixed (n : Nat) (old : Nat → Byte) : Memory → Memory
  | [] => []
  | (a, b) :: l => (a, if Config.freeNew n a then b else old a) :: mixed n old l

/-- What the chip has heard when a transfer fails: the byte of that transfer, or not (60_exceptions.md R306, 93 U29). -/
def Responder.unsure (n : Nat) (r : Responder) : Responder :=
  { r with heard := if Config.freeHeard n then r.heard else r.heard.map List.dropLast }

/-- `CS(1)` of a frame that a failed transfer cut short (60_exceptions.md R306): R102 to R106 for what the chip heard. A WRITE
frame that the chip accepts (R106) leaves the bytes of its range, `range`, unspecified (R88); no other frame has a range. -/
def Responder.onCutShort (c : Config) (n : Nat) (range : Memory) (r : Responder) : Responder :=
  let t := (r.unsure n).onCsHigh c
  if range ≠ [] ∧ r.wel = true ∧ r.wip = false then
    { t with array := r.array.setAll (mixed n r.byteAt range), pend := [] }
  else t

/-- The chip after a reset of the block in a running command (70_reset_and_hazards.md R341): the bytes of the command's write
range are unspecified, each as in the array before the command or new; every other byte is as written, a pending one
included; WEL and the busy state are unknown, so that the next RDSR tells them. -/
def Responder.abandoned (n : Nat) (before range : Memory) (r : Responder) : Responder :=
  { r with
    array := (r.array.setAll r.pend).setAll (mixed n (arrayByte before) range)
    wel := Config.freeWel n
    wip := Config.freeWip n
    pend := []
    busyLeft := Config.freeBusyLeft n
    heard := none }

end Sys2Proof.Machine
end

