-- ==== Sys2Proof/Machine/Ops.lean ====
section
/-! DEFINITION. The named operations over the state: the wire and time primitives (spec/00_scope.md R14), the start and the
completion of a command (spec/60_exceptions.md R301 to R303, R310: the hardware's counterpart of taking an exception and
returning), WaitForReady (spec/41_status.md R196), the splitter (spec/43_write.md R244) and the frame engine
(spec/30_encoding.md R126). -/

namespace Sys2Proof.Machine

/-! ### Updates of one field -/

/-- `phase <- p` (00_scope.md R15). -/
def State.goto (p : Phase) (s : State) : State := { s with phase := p }

/-- Append one event to the wire trace (10_state.md R55). -/
def State.emit (e : WireEvent) (s : State) : State := { s with trace := s.trace ++ [e] }

/-- Change the environment. -/
def State.setEnv (e : Env) (s : State) : State := { s with env := e }

/-- Change the cursor. -/
def State.setCur (c : Cursor) (s : State) : State := { s with cur := c }

/-- `MemWrite(i, 1, v)` (00_scope.md R13). -/
def State.bufWrite (i : Nat) (v : Byte) (s : State) : State := { s with buf := s.buf.set i v }

/-- `x[RDATA] <- v` (10_state.md R38). -/
def State.setRdata (v : Byte) (s : State) : State := { s with regs := { s.regs with rdata := v } }

/-! ### Draws (00_scope.md R14, 20_memory.md R92) -/

/-- The transport's answer to the next Xfer: the next answer the environment has ready, else a free draw. Over an attached
responder the byte of a good transfer is the responder's, and a transfer fails only where the environment says so (R108).
Where `XFER_MAY_FAIL` is false ok is true (00_scope.md R8). -/
def State.xferAnswer (s : State) : Answer :=
  match s.env.answers, s.env.chip with
  | a :: _, none => ⟨a.rx, a.ok || !s.cfg.xferMayFail⟩
  | [], none => ⟨Config.freeRx s.env.draws, Config.freeOk s.env.draws || !s.cfg.xferMayFail⟩
  | a :: _, some r => if a.ok || !s.cfg.xferMayFail then ⟨r.answer s.cfg, true⟩ else ⟨a.rx, false⟩
  | [], some r => ⟨r.answer s.cfg, true⟩

/-- The environment after an Xfer of `tx`: the answer is used up, and an attached responder has heard the byte (of a failed
transfer, see `Responder.unsure`). -/
def Env.afterXfer (tx : Byte) (e : Env) : Env :=
  match e.answers, e.chip with
  | _ :: rest, none => { e with answers := rest }
  | [], none => { e with draws := e.draws + 1 }
  | _ :: rest, some r => { e with answers := rest, chip := some (r.hear tx) }
  | [], some r => { e with chip := some (r.hear tx) }

/-- The next reading of the time source (41_status.md R197). -/
def State.nowValue (s : State) : Word :=
  match s.env.times with
  | t :: _ => t
  | [] => Config.freeTime s.env.draws

/-- The environment after a reading. -/
def Env.afterNow (e : Env) : Env :=
  match e.times with
  | _ :: rest => { e with times := rest }
  | [] => { e with draws := e.draws + 1 }

/-- The array before a write or update command, with what a write cycle still has to commit: the OLD bytes of
70_reset_and_hazards.md R341. -/
def Env.keepBefore (e : Env) : Env :=
  match e.chip with
  | some r => { e with before := r.array.setAll r.pend }
  | none => e

/-- The environment after the `CS(1)` of a frame cut short, whose WRITE range is `range` (60_exceptions.md R306). -/
def Env.cutShort (c : Config) (range : Memory) (e : Env) : Env :=
  match e.chip with
  | some r => { e with chip := some (r.onCutShort c e.draws range), draws := e.draws + 1 }
  | none => e

/-- The environment after a reset that abandons a command, whose write range is `range` (70_reset_and_hazards.md R341). -/
def Env.abandon (range : Memory) (e : Env) : Env :=
  match e.chip with
  | some r => { e with chip := some (r.abandoned e.draws e.before range), draws := e.draws + 1 }
  | none => e

/-! ### Wire and time primitives (00_scope.md R14, 10_state.md R50 to R52) -/

/-- The fixed bus mode MODE0 (R50). -/
def mode0 : SpiMode := ⟨false, false⟩

/-- `CsLow()`. -/
def State.csLow (s : State) : State :=
  ({ s with cs := .low, env := { s.env with chip := s.env.chip.map Responder.onCsLow } }).emit (.cs false)

/-- `CsHigh()`. -/
def State.csHigh (s : State) : State :=
  ({ s with cs := .high, env := { s.env with chip := s.env.chip.map (Responder.onCsHigh s.cfg) } }).emit (.cs true)

/-- `CsHigh()` of a frame that a failed transfer cut short (30_encoding.md R126, 60_exceptions.md R306). -/
def State.csCut (u : FrameUse) (s : State) : State :=
  ({ s with cs := .high, env := s.env.cutShort s.cfg (s.frameRange u) }).emit (.cs true)

/-- `CsRelease()`. -/
def State.csRelease (s : State) : State := ({ s with cs := .z }).emit .csz

/-- `TxnBegin(clockHz)`: MSB_FIRST and MODE0 always. -/
def State.txnBegin (s : State) : State := s.emit (.beginTxn s.clockHz .msbFirst mode0)

/-- `TxnEnd()`. -/
def State.txnEnd (s : State) : State := s.emit .endTxn

/-- `Xfer(tx)`: the state after it; its answer is `xferAnswer`. -/
def State.xfer (tx : Byte) (s : State) : State :=
  (s.setEnv (s.env.afterXfer tx)).emit (.xfer tx s.xferAnswer.rx s.xferAnswer.ok)

/-- `Now()`: the state after it; its reading is `nowValue`. -/
def State.now (s : State) : State := (s.setEnv s.env.afterNow).emit (.time s.nowValue)

/-- `Yield()` (41_status.md R200). -/
def State.yieldStep (s : State) : State := s.emit .yield

/-! ### Start and completion (60_exceptions.md R301 to R303, R308, R310) -/

/-- The first half of `Start(v)` (R301): latch the code and the operands, and BUSY <- 1 with phase <- CHECK. -/
def State.start (v : Word) (s : State) : State :=
  { s with
    lat := { code := v.setWidth 8, addr := s.regs.addr, len := s.regs.len, data := s.regs.wdata, clk := s.regs.clkcfg }
    phase := .check }

/-- `return n` at the top level of a command (R302). -/
def State.succeed (n : Word) (s : State) : State :=
  { s with regs := { s.regs with result := n, err := .none }, phase := .idle }

/-- `raise Err(c)` (R303). The attached responder is left as the frames sent so far have made it (R306), a choice where
20_memory.md R88 and 93 U3 leave each byte of the failed command's range old or new: DESIGN CHOICE (log 26). -/
def State.raiseErr (c : ErrCode) (s : State) : State :=
  { s with regs := { s.regs with result := 0, err := c }, phase := .idle }

/-- `RecordFault(c)` (R310): the first fault is kept. -/
def State.recordFault (c : Cause) (s : State) : State :=
  { s with fault := match s.fault with
                    | some d => some d
                    | none => some c }

/-- The error code a command reports for a fault (R300, R310). BUSY_ACCESS never ends a command; it has no code in ERR. -/
def Cause.err : Cause → ErrCode
  | .notInit => .notInit
  | .illegalCmd => .illegalCmd
  | .bufRange => .bufRange
  | .busyAccess => .none

/-- `raise Fault(c)` (R310). -/
def State.raiseFault (c : Cause) (s : State) : State := (s.recordFault c).raiseErr c.err

/-- `RequireInit()` (R308), with the rest of the command. -/
def State.requireInit (k : State → State) (s : State) : State :=
  if s.initDone then k s else s.raiseFault .notInit

/-- The BUF_RANGE check (R310), with the rest of the command. -/
def State.requireBuf (k : State → State) (s : State) : State :=
  if s.cfg.bufBytes < s.cLen then s.raiseFault .bufRange else k s

/-- The PRECONDITION check (R305), with the rest of the command. -/
def State.requireThat (ok : Bool) (k : State → State) (s : State) : State :=
  if ok then k s else s.raiseErr .precondition

/-- A zero-length request returns 0 at once (92 D18); else the rest of the command. -/
def State.unlessEmpty (k : State → State) (s : State) : State :=
  if s.cLen = 0 then s.succeed 0 else k s

/-! ### WaitForReady (41_status.md R196) -/

/-- `waitStart <- Now()`, then the first poll. -/
def State.startWait (r : WaitRet) (s : State) : State :=
  (s.now.setCur { s.cur with waitStart := s.nowValue }).goto (.frame (.poll r) .csLow)

/-- `t <- Now()` after a busy poll: TIMEOUT when the modular elapsed time exceeds T_WAIT_US. -/
def State.pollTime (r : WaitRet) (s : State) : State :=
  s.now.goto (if s.cfg.tWaitUs < (s.nowValue - s.cur.waitStart).toNat then .failing .timeout else .pollY r)

/-- `Yield()`, then the next poll. -/
def State.pollYield (r : WaitRet) (s : State) : State := s.yieldStep.goto (.frame (.poll r) .csLow)

/-- After a poll frame: ready returns to the caller of the wait, busy goes on to the time check. -/
def State.afterPoll (r : WaitRet) (s : State) : State :=
  s.goto (if chipReady s.cur.sr then .frame r.use .csLow else .pollT r)

/-! ### The page splitter (43_write.md R244, R245) -/

/-- The wait a segment begins with: of UpdatePageSeq for the update commands, of WritePageSeq for the others (R240, R270). -/
def State.segWait (s : State) : WaitRet := if isUpdate s.command then .compare else .write

/-- The cursor at the first segment. -/
def State.firstSegment (a len n : Nat) (s : State) : State :=
  s.setCur { s.cur with segAddr := a, segLen := len, off := 0, rem := n, k := 0, i := 0 }

/-- The cursor at the next segment: `segLen <- min(P, rem)` (R244 (2), (3)). -/
def Cursor.advance (page : Nat) (c : Cursor) : Cursor :=
  { c with
    segAddr := c.segAddr + c.segLen
    off := c.off + c.segLen
    rem := c.rem - c.segLen
    segLen := min page (c.rem - c.segLen)
    k := 0
    i := 0 }

/-- After a segment: the next one, whose PageCheck comes first (R245 WriteSeg, R273 UpdateSeg), or the end of the loop. -/
def State.nextSegment (s : State) : State :=
  let c := s.cur.advance s.cfg.page
  (s.setCur c).goto
    (if c.rem = 0 then .complete
     else if pageCheck s.cfg c.segAddr c.segLen then .waitT0 s.segWait
     else .failing .precondition)

/-- The first segment of a command from its check: PageCheck, then the wait. -/
def State.beginSegments (a len n : Nat) (s : State) : State :=
  let s' := s.firstSegment a len n
  if pageCheck s.cfg a len then (s'.setEnv s.env.keepBefore).startWait s.segWait else s'.raiseErr .precondition

/-! ### Frame engine (30_encoding.md R126) -/

/-- `StartCommand` up to its first primitive. -/
def State.openFrame (u : FrameUse) (s : State) : State := s.csLow.goto (.frame u .txnBegin)

/-- `XferChk(tx)` inside a frame: the transfer, then the rest of the frame, or the closing of a failed frame. -/
def State.xferChk (u : FrameUse) (tx : Byte) (k : Byte → State → State) (s : State) : State :=
  if s.xferAnswer.ok then k s.xferAnswer.rx (s.xfer tx) else (s.xfer tx).goto (.frame u (.csHigh true))

/-- The program point before the j-th address byte, or the one after the last: the data phase with `i <- 0` and, for a
compare, `k <- n` (R270), or the end of a frame that has none. -/
def State.enterAddr (u : FrameUse) (j : Nat) (s : State) : State :=
  if j < (s.frameAddr u).length then s.goto (.frame u (.addr j))
  else if u.hasData then
    (s.setCur { s.cur with
      i := 0
      k := match u with
           | .compare => s.cur.segLen
           | .status | .poll _ | .wrenCmd | .wrenSeq | .wrdi | .read | .write => s.cur.k }).goto (.frame u .data)
  else s.goto (.frame u (.csHigh false))

/-- After the i-th data byte of a frame of n: the next one, or the end of the data phase. -/
def State.nextData (u : FrameUse) (s : State) : State :=
  (s.setCur { s.cur with i := s.cur.i + 1 }).goto
    (.frame u (if s.cur.i + 1 < s.frameLen u then .data else .csHigh false))

/-- After a frame that was not cut short: the program point that follows it in the pseudocode. -/
def State.afterFrame (u : FrameUse) (s : State) : State :=
  match u with
  | .status | .wrenCmd | .wrdi | .read => s.goto .complete
  | .poll r => s.afterPoll r
  | .wrenSeq => s.goto (.frame .write .csLow)
  | .compare => if s.cur.k = s.cur.segLen then s.nextSegment else s.goto (.waitT0 .write)
  | .write => s.nextSegment

/-- One step of the frame whose opcode byte is `op`, with the step of its data phase: the one wire primitive at the
program point, and the program point after it. A TxnBegin that the transport has not granted is a hold (10_state.md R53):
the sequencer stays where it is. DEDUCED (log 8): a TxnEnd never holds, though 60_exceptions.md R306 says that TxnBegin and TxnEnd
"may only hold", since R53, 92 D40 and 93 U16 give the hold to TxnBegin alone. -/
def frameStep (op : Byte) (data : FrameUse → State → Res) (s : State) : Res :=
  match s.phase with
  | .frame u pt =>
    if s.frameOp u = op then
      match pt with
      | .csLow => .next (s.openFrame u)
      | .txnBegin => if s.env.busFree then .next (s.txnBegin.goto (.frame u .opcode)) else .next s
      | .opcode => .next (s.xferChk u op (fun _ t => t.enterAddr u 0))
      | .addr j =>
        match (s.frameAddr u)[j]? with
        | some b => .next (s.xferChk u b (fun _ t => t.enterAddr u (j + 1)))
        | none => .fault .notAtProgramPoint
      | .data => data u s
      | .csHigh false => .next (s.csHigh.goto (.frame u (.txnEnd false)))
      | .csHigh true => .next ((s.csCut u).goto (.frame u (.txnEnd true)))
      | .txnEnd false => .next (s.txnEnd.afterFrame u)
      | .txnEnd true => .next (s.txnEnd.goto (.failing .bus))
    else .fault .notAtProgramPoint
  | .idle | .check | .pin | .waitT0 _ | .pollT _ | .pollY _ | .complete | .failing _ => .fault .notAtProgramPoint

/-- The data phase of a frame that has none. -/
def noData (_ : FrameUse) (_ : State) : Res := .fault .notAtProgramPoint

/-! ### Shapes of a host command: what runs at each program point outside a frame -/

/-- A command that ends in its first step (40_control.md R173, R174). -/
def runAtOnce (body : State → State) (s : State) : Res :=
  match s.phase with
  | .check => .next (body s)
  | .idle | .pin | .waitT0 _ | .pollT _ | .pollY _ | .frame _ _ | .complete | .failing _ => .fault .notAtProgramPoint

/-- A command with one pin step (R170, R172). -/
def runPin (body done : State → State) (s : State) : Res :=
  match s.phase with
  | .check => .next (body s)
  | .pin => .next (done s)
  | .idle | .waitT0 _ | .pollT _ | .pollY _ | .frame _ _ | .complete | .failing _ => .fault .notAtProgramPoint

/-- A command with frames and no wait (41_status.md R191 to R194, R199). -/
def runFrames (body done : State → State) (s : State) : Res :=
  match s.phase with
  | .check => .next (body s)
  | .complete => .next (done s)
  | .failing c => .next (s.raiseErr c)
  | .idle | .pin | .waitT0 _ | .pollT _ | .pollY _ | .frame _ _ => .fault .notAtProgramPoint

/-- A command that waits for readiness (R199). -/
def runWaiting (body done : State → State) (s : State) : Res :=
  match s.phase with
  | .check => .next (body s)
  | .waitT0 r => .next (s.startWait r)
  | .pollT r => .next (s.pollTime r)
  | .pollY r => .next (s.pollYield r)
  | .complete => .next (done s)
  | .failing c => .next (s.raiseErr c)
  | .idle | .pin | .frame _ _ => .fault .notAtProgramPoint

end Sys2Proof.Machine
end

