-- ==== Sys2Proof/Machine/Control.lean ====
section
/-! DEFINITION. The control commands (spec/40_control.md). -/

namespace Sys2Proof.Machine

/-- INIT (R170): the clock and the pin in the first step, `initDone` and the result in the second. -/
def execInit (s : State) : Res :=
  runPin
    (fun s => ({ s with clockHz := if s.lat.clk = 0 then s.cfg.defaultClockHz else s.lat.clk }).csHigh.goto .pin)
    (fun s => ({ s with initDone := true }).succeed 1) s

/-- DEINIT (R172): the pin in the first step, `initDone` and the result in the second; clockHz is kept. -/
def execDeinit (s : State) : Res :=
  runPin (fun s => s.csRelease.goto .pin) (fun s => ({ s with initDone := false }).succeed 1) s

/-- GET_CAPACITY (R173). -/
def execGetCapacity (s : State) : Res := runAtOnce (fun s => s.succeed (BitVec.ofNat 32 s.cfg.cap)) s

/-- GET_PAGE_SIZE (R174). -/
def execGetPageSize (s : State) : Res := runAtOnce (fun s => s.succeed (BitVec.ofNat 32 s.cfg.page)) s

end Sys2Proof.Machine
end

