-- ==== Sys2Proof/Machine/Frames.lean ====
section
/-! DEFINITION. The wire opcodes (spec/30_encoding.md R120, R127 to R131): one step of the frame each one opens. -/

namespace Sys2Proof.Machine

/-- The data phase of RDSR (R129): one receive byte, the status byte of ReadSR (41_status.md R190). -/
def statusData (u : FrameUse) (s : State) : Res :=
  .next (s.xferChk u s.cfg.dummyTx fun rx t => (t.setCur { t.cur with sr := rx }).goto (.frame u (.csHigh false)))

/-- A received data byte of a read command: RDATA's byte for READ_BYTE, BUF[i] for READ_BLOCK (42_read.md R221, R222). -/
def State.keepByte (rx : Byte) (s : State) : State :=
  if isByteCommand s.command then s.setCur { s.cur with d := rx } else s.bufWrite s.cur.i rx

/-- Whether the next received byte of a read command has a place: BUF index i exists (20_memory.md R81). -/
def State.hasPlace (s : State) : Bool := isByteCommand s.command || decide (s.cur.i < s.cfg.bufBytes)

/-- A received byte of a compare frame (44_update.md R270): at the first mismatch `k <- j` and the frame ends. -/
def State.compareByte (u : FrameUse) (new rx : Byte) (s : State) : State :=
  if rx = new then s.nextData u
  else (s.setCur { s.cur with k := s.cur.i }).goto (.frame u (.csHigh false))

/-- The data phase of READ: the receive bytes of a read command (R127) or of a compare (44_update.md R270). -/
def readData (u : FrameUse) (s : State) : Res :=
  match u with
  | .read =>
    if s.hasPlace then .next (s.xferChk u s.cfg.dummyTx fun rx t => (t.keepByte rx).nextData u)
    else .fault .bufIndex
  | .compare =>
    match s.srcByte s.cur.i with
    | some new => .next (s.xferChk u s.cfg.dummyTx fun rx t => t.compareByte u new rx)
    | none => .fault .bufIndex
  | .status | .poll _ | .wrenCmd | .wrenSeq | .wrdi | .write => .fault .notAtProgramPoint

/-- The data phase of WRITE (R128): the bytes from index k on; the rx byte is discarded (R134). -/
def writeData (u : FrameUse) (s : State) : Res :=
  match s.srcByte (s.cur.k + s.cur.i) with
  | some b => .next (s.xferChk u b fun _ t => t.nextData u)
  | none => .fault .bufIndex

/-- READ (R127). -/
def execWireRead (s : State) : Res := frameStep 0x03 readData s

/-- READ_A8 (R124, R127). -/
def execWireReadA8 (s : State) : Res := frameStep 0x0B readData s

/-- WRITE (R128). -/
def execWireWrite (s : State) : Res := frameStep 0x02 writeData s

/-- WRITE_A8 (R124, R128). -/
def execWireWriteA8 (s : State) : Res := frameStep 0x0A writeData s

/-- RDSR (R129). -/
def execWireRdsr (s : State) : Res := frameStep 0x05 statusData s

/-- WREN (R130). -/
def execWireWren (s : State) : Res := frameStep 0x06 noData s

/-- WRDI (R130). -/
def execWireWrdi (s : State) : Res := frameStep 0x04 noData s

/-- WRSR (R131, 93 U10): never sent, and its frame format and effect are not specified; refused by name. -/
def execWireWrsr (_ : State) : Res := .refused .wrsrFormatNotSpecified

end Sys2Proof.Machine
end

