-- ==== Sys2Proof/Machine/Read.lean ====
section
/-! DEFINITION. The read commands (spec/42_read.md R221, R222). -/

namespace Sys2Proof.Machine

/-- READ_BYTE (R222). -/
def execReadByte (s : State) : Res :=
  runWaiting
    (·.requireInit fun s => s.requireThat (inRange s.cfg s.cAddr 1) (·.startWait .read))
    (fun s => (s.setRdata s.cur.d).succeed 1) s

/-- READ_BLOCK (R221). -/
def execReadBlock (s : State) : Res :=
  runWaiting
    (·.requireInit fun s => s.requireThat (inRange s.cfg s.cAddr s.cLen)
      (·.requireBuf (·.unlessEmpty (·.startWait .read))))
    (fun s => s.succeed s.lat.len) s

end Sys2Proof.Machine
end

