-- ==== Sys2Proof/Machine/Status.lean ====
section
/-! DEFINITION. The status commands (spec/41_status.md R191 to R194). -/

namespace Sys2Proof.Machine

/-- READ_STATUS (R191). -/
def execReadStatus (s : State) : Res :=
  runFrames (·.requireInit (·.openFrame .status)) (fun s => (s.setRdata s.cur.sr).succeed 1) s

/-- IS_READY (R192): RESULT 1 is ready, 0 is busy. -/
def execIsReady (s : State) : Res :=
  runFrames (·.requireInit (·.openFrame .status))
    (fun s => (s.setRdata s.cur.sr).succeed (if chipReady s.cur.sr then 1 else 0)) s

/-- WRITE_ENABLE (R193). -/
def execWriteEnable (s : State) : Res :=
  runFrames (·.requireInit (·.openFrame .wrenCmd)) (·.succeed 1) s

/-- WRITE_DISABLE (R194). -/
def execWriteDisable (s : State) : Res :=
  runFrames (·.requireInit (·.openFrame .wrdi)) (·.succeed 1) s

end Sys2Proof.Machine
end

