-- ==== Sys2Proof/Machine/Update.lean ====
section
/-! DEFINITION. The update commands (spec/44_update.md R271 to R273). Each segment starts with the wait of UpdatePageSeq
(`State.segWait`); a page or byte command is one segment. -/

namespace Sys2Proof.Machine

/-- UPDATE_PAGE (R271). -/
def execUpdatePage (s : State) : Res :=
  runWaiting
    (·.requireInit fun s => s.requireThat (pageCheck s.cfg s.cAddr s.cLen)
      (·.requireBuf (·.unlessEmpty fun s => s.beginSegments s.cAddr s.cLen s.cLen)))
    (fun s => s.succeed s.lat.len) s

/-- UPDATE_BYTE (R272). -/
def execUpdateByte (s : State) : Res :=
  runWaiting
    (·.requireInit fun s => s.requireThat (inRange s.cfg s.cAddr 1) fun s => s.beginSegments s.cAddr 1 1)
    (·.succeed 1) s

/-- UPDATE_BLOCK (R273). -/
def execUpdateBlock (s : State) : Res :=
  runWaiting
    (·.requireInit fun s => s.requireThat (inRange s.cfg s.cAddr s.cLen)
      (·.requireBuf (·.unlessEmpty fun s => s.beginSegments s.cAddr (firstSegLen s.cfg s.cAddr s.cLen) s.cLen)))
    (fun s => s.succeed s.lat.len) s

end Sys2Proof.Machine
end

