-- ==== Sys2Proof/Machine/Write.lean ====
section
/-! DEFINITION. The write commands (spec/43_write.md R242, R243, R245). Their frames and the splitter loop go on in
Ops.lean; a page or byte command is one segment. -/

namespace Sys2Proof.Machine

/-- WRITE_PAGE (R242). -/
def execWritePage (s : State) : Res :=
  runWaiting
    (·.requireInit fun s => s.requireThat (pageCheck s.cfg s.cAddr s.cLen)
      (·.requireBuf (·.unlessEmpty fun s => s.beginSegments s.cAddr s.cLen s.cLen)))
    (fun s => s.succeed s.lat.len) s

/-- WRITE_BYTE (R243). -/
def execWriteByte (s : State) : Res :=
  runWaiting
    (·.requireInit fun s => s.requireThat (inRange s.cfg s.cAddr 1) fun s => s.beginSegments s.cAddr 1 1)
    (·.succeed 1) s

/-- WRITE_BLOCK (R245). -/
def execWriteBlock (s : State) : Res :=
  runWaiting
    (·.requireInit fun s => s.requireThat (inRange s.cfg s.cAddr s.cLen)
      (·.requireBuf (·.unlessEmpty fun s => s.beginSegments s.cAddr (firstSegLen s.cfg s.cAddr s.cLen) s.cLen)))
    (fun s => s.succeed s.lat.len) s

end Sys2Proof.Machine
end

