-- ==== Sys2Proof/Machine/Dispatch.lean ====
section
/-! DEFINITION. One arm per constructor of Instr. -/

namespace Sys2Proof.Machine

def exec (i : Instr) (s : State) : Host.Outcome State Fault Refusal :=
  match i with
  -- spec/40_control.md
  | .init => Sys2Proof.Machine.execInit s
  | .deinit => Sys2Proof.Machine.execDeinit s
  | .getCapacity => Sys2Proof.Machine.execGetCapacity s
  | .getPageSize => Sys2Proof.Machine.execGetPageSize s
  -- spec/41_status.md
  | .readStatus => Sys2Proof.Machine.execReadStatus s
  | .isReady => Sys2Proof.Machine.execIsReady s
  | .writeEnable => Sys2Proof.Machine.execWriteEnable s
  | .writeDisable => Sys2Proof.Machine.execWriteDisable s
  -- spec/42_read.md
  | .readByte => Sys2Proof.Machine.execReadByte s
  | .readBlock => Sys2Proof.Machine.execReadBlock s
  -- spec/43_write.md
  | .writeByte => Sys2Proof.Machine.execWriteByte s
  | .writeBlock => Sys2Proof.Machine.execWriteBlock s
  | .writePage => Sys2Proof.Machine.execWritePage s
  -- spec/44_update.md
  | .updateByte => Sys2Proof.Machine.execUpdateByte s
  | .updateBlock => Sys2Proof.Machine.execUpdateBlock s
  | .updatePage => Sys2Proof.Machine.execUpdatePage s
  -- spec/30_encoding.md, wire opcodes
  | .wireRead => Sys2Proof.Machine.execWireRead s
  | .wireReadA8 => Sys2Proof.Machine.execWireReadA8 s
  | .wireWrite => Sys2Proof.Machine.execWireWrite s
  | .wireWriteA8 => Sys2Proof.Machine.execWireWriteA8 s
  | .wireRdsr => Sys2Proof.Machine.execWireRdsr s
  | .wireWren => Sys2Proof.Machine.execWireWren s
  | .wireWrdi => Sys2Proof.Machine.execWireWrdi s
  | .wireWrsr => Sys2Proof.Machine.execWireWrsr s

end Sys2Proof.Machine
end

