-- ==== Sys2Proof/Machine/HostBus.lean ====
section
/-! DEFINITION. The host's accesses to the block (spec/10_state.md R32 to R34, R46, spec/20_memory.md R82, R84,
spec/60_exceptions.md R310), the host program statements (spec/30_encoding.md R144) and reset of a running block
(spec/70_reset_and_hazards.md R340, R341). -/

namespace Sys2Proof.Machine

/-- What a host access of a width reaches (R32, R82, R84). -/
inductive Target where
  | reg (off : Nat)
  | buf (i : Nat)
  | nothing
  deriving DecidableEq, Repr

/-- Registers are at offsets 0x00 to 0x23 and take aligned 32-bit accesses, BUF[i] is at 0x1000 + i and takes 8-bit
accesses; everything else reaches nothing (R82, R84). DESIGN CHOICE (log 25): a register access is aligned when its offset from
HOST_BASE is a multiple of 4, whatever HOST_BASE is; R84 does not say of a HOST_BASE that is no multiple of 4. -/
def hostTarget (c : Config) (a size : Nat) : Target :=
  if a < c.hostBase then .nothing
  else
    let off := a - c.hostBase
    if off < 0x24 ∧ off % 4 = 0 ∧ size = 4 then .reg off
    else if 0x1000 ≤ off ∧ off < 0x1000 + c.bufBytes ∧ size = 1 then .buf (off - 0x1000)
    else .nothing

/-- The value of a CMD write, none for any other access (R33). -/
def cmdWrite (c : Config) : HostOp → Option Word
  | .write a lanes => if hostTarget c a lanes.length = .reg 0x00 then some (wordOfLanes lanes) else none
  | .read _ _ => none

/-- A write to a register other than CMD (R32, R34): ADDR, LEN, WDATA and CLKCFG keep it, the others ignore it. -/
def State.writeReg (off : Nat) (v : Word) (s : State) : State :=
  if off = 0x04 then { s with regs := { s.regs with addr := v } }
  else if off = 0x08 then { s with regs := { s.regs with len := v } }
  else if off = 0x0C then { s with regs := { s.regs with wdata := v.setWidth 8 } }
  else if off = 0x10 then { s with regs := { s.regs with clkcfg := v } }
  else s

/-- The value a register reads (R32): CMD reads 0, the others as they stand. -/
def State.readReg (off : Nat) (s : State) : Word :=
  if off = 0x04 then s.regs.addr
  else if off = 0x08 then s.regs.len
  else if off = 0x0C then s.regs.wdata.setWidth 32
  else if off = 0x10 then s.regs.clkcfg
  else if off = 0x14 then s.regs.result
  else if off = 0x18 then s.regs.rdata.setWidth 32
  else if off = 0x1C then s.statusWord
  else if off = 0x20 then s.srFields
  else 0

/-- A host write that is not a CMD write. A BUF write while BUSY = 1 is dropped and recorded (R310). -/
def State.hostWrite (a : Nat) (lanes : List Byte) (s : State) : State :=
  match hostTarget s.cfg a lanes.length with
  | .reg off => s.writeReg off (wordOfLanes lanes)
  | .buf i => if s.busy then s.recordFault .busyAccess else s.bufWrite i (laneAt lanes 0)
  | .nothing => s

/-- The lanes a host read answers. -/
def State.readLanes (a size : Nat) (s : State) : List Byte :=
  match hostTarget s.cfg a size with
  | .reg off => lanesOf (s.readReg off)
  | .buf i => [if s.busy then 0 else s.bufByte i]
  | .nothing => List.replicate size 0

/-- A host read. A BUF read while BUSY = 1 answers 0 and is recorded (R310). -/
def State.hostRead (a size : Nat) (s : State) : State :=
  let t := match hostTarget s.cfg a size with
    | .buf _ => if s.busy then s.recordFault .busyAccess else s
    | .reg _ | .nothing => s
  { t with hostData := s.readLanes a size }

/-- Change the schedule. -/
def State.setSched (l : List Event) (s : State) : State := { s with env := { s.env with sched := l } }

/-- The transport grants the bus or withholds it (10_state.md R53). -/
def State.setBus (granted : Bool) (s : State) : State := { s with env := { s.env with busFree := granted } }

/-- A reset of the block (R340). A reset while a command runs abandons the command, and the attached responder is left as
R341 says. -/
def State.warmReset (s : State) : State :=
  let e := if s.busy then s.env.abandon s.writeRange else s.env
  State.afterReset s.cfg { e with epoch := e.epoch + 1 }

/-- The legal code of a CMD write on this configuration (30_encoding.md R140, R142). -/
def hostInstr (c : Config) (code : Byte) : Option Instr :=
  match decodeHost code with
  | some i => if i.wellFormed c then some i else none
  | none => none

/-- The instruction the sequencer is at: the wire opcode of the open frame, else the running host command. -/
def fetch (s : State) : Option Instr :=
  match s.phase with
  | .idle => none
  | .frame u _ => decodeWire (s.frameOp u)
  | .check | .pin | .waitT0 _ | .pollT _ | .pollY _ | .complete | .failing _ => hostInstr s.cfg s.lat.code

/-! ### Host program statements (30_encoding.md R144) -/

/-- `WR REG, v` for the register at an offset. -/
def wr (c : Config) (off : Nat) (v : Word) : Event := .host (.write (c.hostBase + off) (lanesOf v))

/-- `WR BUF[i], v`. -/
def wrBuf (c : Config) (i : Nat) (v : Byte) : Event := .host (.write (c.hostBase + 0x1000 + i) [v])

/-- `RD REG`. -/
def rd (c : Config) (off : Nat) : Event := .host (.read (c.hostBase + off) 4)

/-- `RD BUF[i]`. -/
def rdBuf (c : Config) (i : Nat) : Event := .host (.read (c.hostBase + 0x1000 + i) 1)

/-- The register writes of a pseudo-instruction, then its CMD write, then WAITIDLE; `x` and `y` are its operands in the
order R144 writes them. A wire opcode is no host statement. -/
def expand (c : Config) (i : Instr) (x y : Word) : List Event :=
  match i with
  | .init => wr c 0x10 x :: go
  | .deinit | .getCapacity | .getPageSize | .readStatus | .isReady | .writeEnable | .writeDisable => go
  | .readByte => wr c 0x04 x :: go
  | .writeByte | .updateByte => wr c 0x04 x :: wr c 0x0C y :: go
  | .readBlock | .writeBlock | .writePage | .updateBlock | .updatePage => wr c 0x04 x :: wr c 0x08 y :: go
  | .wireRead | .wireReadA8 | .wireWrite | .wireWriteA8 | .wireRdsr | .wireWren | .wireWrdi | .wireWrsr => []
where
  /-- The CMD write and WAITIDLE. -/
  go : List Event := [wr c 0x00 ((encode i).setWidth 32), .waitIdle]

end Sys2Proof.Machine
end

