-- ==== Sys2Proof/Machine/Step.lean ====
section
/-! DEFINITION. One step of the machine: the agent the schedule names moves, or the sequencer where it names none. -/

namespace Sys2Proof.Machine

/-- One step of the sequencer (10_state.md R36): the instruction at the phase runs to its next wire or time primitive or
to the command's end. An idle sequencer does nothing (60_exceptions.md R319). -/
def seqStep (s : State) : Res :=
  match s.phase with
  | .idle => .next s
  | .check | .pin | .waitT0 _ | .pollT _ | .pollY _ | .frame _ _ | .complete | .failing _ =>
    match fetch s with
    | some i => exec i s
    | none => .fault .notAtProgramPoint

/-- A CMD write (10_state.md R33, 60_exceptions.md R301): while idle it starts the command, in the same step as its first
primitive; while busy it is ignored and recorded. -/
def cmdStep (v : Word) (s : State) : Res :=
  if s.busy then .next (s.recordFault .busyAccess)
  else
    match hostInstr s.cfg (v.setWidth 8) with
    | some i => exec i (s.start v)
    | none => .next ((s.start v).raiseFault .illegalCmd)

/-- A host access. -/
def hostStep (op : HostOp) (s : State) : Res :=
  match cmdWrite s.cfg op with
  | some v => cmdStep v s
  | none =>
    match op with
    | .write a lanes => .next (s.hostWrite a lanes)
    | .read a size => .next (s.hostRead a size)

/-- One step. An invalid configuration is refused (00_scope.md R9). -/
def step (s : State) : Host.Outcome State Fault Refusal :=
  if s.cfg.valid then
    match s.env.sched with
    | [] => seqStep s
    | .seq :: r => seqStep (s.setSched r)
    | .waitIdle :: r => if s.busy then seqStep s else .next ((s.setSched r).hostRead (s.cfg.hostBase + 0x1C) 4)
    | .host op :: r => hostStep op (s.setSched r)
    | .bus g :: r => .next ((s.setSched r).setBus g)
    | .reset :: r => .next (s.setSched r).warmReset
  else .refused .invalidConfiguration

/-- A running command about to send a frame. -/
def State.atFrame (code : Byte) (u : FrameUse) (s : State) : State :=
  { s with phase := .frame u .csLow, lat := { s.lat with code := code }, env := { s.env with sched := .seq :: s.env.sched } }

/-- `s` with the instruction of a word placed where `step` takes its next one. A host command's code is placed as the next
host access, a 32-bit CMD write to an idle block. A byte that is no host code is placed as the opcode of the frame about
to be sent: the phase is the first point of a frame with that opcode, and the command and the addresses are those that
give the frame that opcode (a NINE_BIT profile and an address with bit 8 set for the alternate opcodes). Any other byte is
placed as a CMD write. -/
def State.withFetchWord (s : State) (nbits w : Nat) : State :=
  let v := w % 2 ^ nbits
  match decodeTableWord nbits w with
  | some .wireRdsr => s.atFrame 0x10 .status
  | some .wireWren => s.atFrame 0x12 .wrenCmd
  | some .wireReadA8 =>
    let t := s.atFrame 0x20 .read
    { t with lat := { t.lat with addr := 0x100 }, cfg := { t.cfg with cap := 512, page := 16 } }
  | some .wireWriteA8 =>
    let t := s.atFrame 0x30 .write
    { t with
      cur := { t.cur with segAddr := 0x100, segLen := 1, off := 0, rem := 1, k := 0, i := 0 }
      cfg := { t.cfg with cap := 512, page := 16 } }
  | _ =>
    { s with
      phase := .idle
      env := { s.env with
        sched := .host (.write s.cfg.hostBase (lanesOf (BitVec.ofNat 32 v))) :: s.env.sched } }

end Sys2Proof.Machine
end

