-- ==== Sys2Proof/Safety.lean ====
section
/-! DEFINITION. What the claims are stated in: runs, the invariant of the machine, the wire protocol over the trace, the
segments of a split, and the assumptions on the environment. -/

namespace Sys2Proof.Machine

/-! ### Runs -/

/-- `n` steps, stopping at the first fault or refusal. -/
def runSteps : Nat → State → Res
  | 0, s => .next s
  | n + 1, s =>
    match step s with
    | .next t => runSteps n t
    | .fault r => .fault r
    | .refused r => .refused r

/-- An outcome with its next state changed. -/
def mapRes (f : State → State) : Res → Res
  | .next t => .next (f t)
  | .fault r => .fault r
  | .refused r => .refused r

/-- Two outcomes of one kind, with related next states. -/
def bothRes (R : State → State → Prop) : Res → Res → Prop
  | .next t, .next u => R t u
  | .fault r, .fault r' => r = r'
  | .refused r, .refused r' => r = r'
  | _, _ => False

/-- The state with other values in the host's holding registers (10_state.md R34). -/
def State.withHolding (addr len : Word) (wdata : Byte) (clkcfg : Word) (s : State) : State :=
  { s with regs := { s.regs with addr := addr, len := len, wdata := wdata, clkcfg := clkcfg } }

/-- The latched operands a CMD write of `v` makes (60_exceptions.md R301). -/
def Regs.latched (v : Word) (r : Regs) : Latched :=
  { code := v.setWidth 8, addr := r.addr, len := r.len, data := r.wdata, clk := r.clkcfg }

/-- A run whose every STATUS.FAULT stays 0: the premise 60_exceptions.md R310 puts on claims. -/
def State.noFault (s : State) : Prop := s.fault = none

/-! ### Which program points a command has (10_state.md R36, 41_status.md R199) -/

/-- The commands of 42_read.md. -/
def isRead : Instr → Bool
  | .readByte | .readBlock => true
  | _ => false

/-- The commands of 43_write.md. -/
def isWrite : Instr → Bool
  | .writeByte | .writeBlock | .writePage => true
  | _ => false

/-- The waits of a command (R199). -/
def waitsFor (i : Instr) : WaitRet → Bool
  | .read => isRead i
  | .write => isWrite i || isUpdate (some i)
  | .compare => isUpdate (some i)

/-- The frames of a command. -/
def sends (i : Instr) : FrameUse → Bool
  | .status => decide (i = .readStatus ∨ i = .isReady)
  | .poll r => waitsFor i r
  | .wrenCmd => decide (i = .writeEnable)
  | .wrdi => decide (i = .writeDisable)
  | .read => isRead i
  | .compare => isUpdate (some i)
  | .wrenSeq | .write => isWrite i || isUpdate (some i)

/-- The commands with bus activity: those that check `initDone` (60_exceptions.md R308). -/
def isBusCommand : Instr → Bool
  | .readStatus | .isReady | .writeEnable | .writeDisable | .readByte | .readBlock | .writeByte | .writeBlock | .writePage
  | .updateByte | .updateBlock | .updatePage => true
  | .init | .deinit | .getCapacity | .getPageSize
  | .wireRead | .wireReadA8 | .wireWrite | .wireWriteA8 | .wireRdsr | .wireWren | .wireWrdi | .wireWrsr => false

/-! ### The invariant -/

/-- The checked range of a read command (42_read.md R221, R222). -/
def State.readOk (s : State) : Prop :=
  1 ≤ s.readLen ∧ s.cAddr + s.readLen ≤ s.cfg.cap ∧ (isByteCommand s.command = false → s.cLen ≤ s.cfg.bufBytes)

/-- The current segment of a write or update command: within the rest of the request, the array, BUF and one page
(43_write.md R241, R246). -/
def State.segOk (s : State) : Prop :=
  1 ≤ s.cur.segLen ∧ s.cur.segLen ≤ s.cur.rem ∧ s.cur.segAddr + s.cur.rem ≤ s.cfg.cap ∧
  s.cur.segAddr % s.cfg.page + s.cur.segLen ≤ s.cfg.page ∧
  (s.cur.segLen < s.cur.rem → (s.cur.segAddr + s.cur.segLen) % s.cfg.page = 0) ∧
  (isByteCommand s.command = false → s.cur.off + s.cur.rem ≤ s.cfg.bufBytes)

/-- The checked range at a point that leads to a READ frame, a WRITE frame or a compare frame. -/
def State.rangeOk (s : State) : WaitRet → Prop
  | .read => s.readOk
  | .write => s.segOk ∧ s.cur.k < s.cur.segLen
  | .compare => s.segOk

/-- The range and the index of a frame at a program point. -/
def State.frameOk (s : State) (u : FrameUse) (pt : FramePoint) : Prop :=
  (match u with
   | .status | .wrenCmd | .wrdi => True
   | .poll r => s.rangeOk r
   | .wrenSeq | .write => s.rangeOk .write
   | .read => s.rangeOk .read
   | .compare => s.rangeOk .compare) ∧
  (match pt with
   | .addr j => j < (s.frameAddr u).length
   | .data => u.hasData = true ∧ (u = .read ∨ u = .compare ∨ u = .write → s.cur.i < s.frameLen u) ∧
      (u = .compare → s.cur.k = s.cur.segLen)
   | .csHigh false | .txnEnd false => u = .compare → s.cur.k ≤ s.cur.segLen
   | .csLow | .txnBegin | .opcode | .csHigh true | .txnEnd true => True)

/-- The chip-select line inside a frame: low from CS(0) to CS(1) (30_encoding.md R126). -/
def FramePoint.csLine : FramePoint → CsLine
  | .csLow | .txnEnd _ => .high
  | .txnBegin | .opcode | .addr _ | .data | .csHigh _ => .low

/-- What holds of a running command `i` at a program point. -/
def State.pointOk (s : State) (i : Instr) : Phase → Prop
  | .idle => False
  | .check => s.cs = (if s.initDone then .high else .z)
  | .pin => (i = .init ∧ s.cs = .high) ∨ (i = .deinit ∧ s.cs = .z)
  | .waitT0 r | .pollT r | .pollY r =>
    s.initDone = true ∧ s.cs = .high ∧ waitsFor i r = true ∧ s.rangeOk r
  | .frame u pt =>
    s.initDone = true ∧ s.cs = pt.csLine ∧ sends i u = true ∧ s.frameOk u pt
  | .complete => s.initDone = true ∧ s.cs = .high ∧ isBusCommand i = true
  | .failing c => s.initDone = true ∧ s.cs = .high ∧ isBusCommand i = true ∧ (c = .timeout ∨ c = .bus)

/-- The invariant of the machine: a valid configuration, memories in their canonical form, and, while idle, the
chip-select line as 10_state.md R51 says, or else a legal command at one of its program points with its range checked. -/
structure Inv (s : State) : Prop where
  cfg : s.cfg.valid = true
  buf : Memory.wf s.buf = true
  chip : ∀ r, s.env.chip = some r → Memory.wf r.array = true
  before : Memory.wf s.env.before = true
  idle : s.phase = .idle → s.cs = (if s.initDone then .high else .z)
  running : s.phase ≠ .idle → ∃ i, hostInstr s.cfg s.lat.code = some i ∧ s.pointOk i s.phase

/-! ### The wire protocol over the trace (30_encoding.md R126, R132, 43_write.md R240) -/

/-- A recogniser of legal traces. `quiet w`: no frame is open, and w says that the last event ended a complete WREN frame.
`selected`, `begun`: after CS(0), after BEGIN. `sent op ok`: the opcode went out, and ok says that no transfer has failed.
`closing`: after CS(1). `bad`: the trace is not legal. -/
inductive Scan where
  | quiet (wren : Bool)
  | selected (wren : Bool)
  | begun (wren : Bool)
  | sent (op : Byte) (ok : Bool)
  | closing (op : Byte) (ok : Bool)
  | bad
  deriving DecidableEq, Repr

/-- The first bytes the sequencer sends (30_encoding.md R132). -/
def sentOpcodes : List Byte := [0x02, 0x03, 0x04, 0x05, 0x06, 0x0A, 0x0B]

/-- One event of a legal trace. A WRITE opcode is legal only when the event before its frame ended a WREN frame. -/
def Scan.next (q : Scan) (e : WireEvent) : Scan :=
  match q, e with
  | .quiet w, .cs false => .selected w
  | .quiet _, .cs true => .quiet false
  | .quiet _, .csz => .quiet false
  | .quiet _, .time _ => .quiet false
  | .quiet _, .yield => .quiet false
  | .selected w, .beginTxn _ order mode => if order = .msbFirst ∧ mode = mode0 then .begun w else .bad
  | .begun w, .xfer tx _ ok =>
    if tx ∈ sentOpcodes ∧ ((tx = 0x02 ∨ tx = 0x0A) → w = true) then .sent tx ok else .bad
  | .sent op true, .xfer _ _ ok => .sent op ok
  | .sent op ok, .cs true => .closing op ok
  | .closing op ok, .endTxn => .quiet (decide (op = 0x06) && ok)
  | _, _ => .bad

/-- The state of the recogniser after a trace. -/
def scan (l : List WireEvent) : Scan := l.foldl Scan.next (.quiet false)

/-- Where the recogniser stands at each program point. -/
def State.scanOk (s : State) : Prop :=
  match s.phase with
  | .frame u .csLow => ∃ w, scan s.trace = .quiet w ∧ (u = .write → w = true)
  | .frame u .txnBegin => ∃ w, scan s.trace = .selected w ∧ (u = .write → w = true)
  | .frame u .opcode => ∃ w, scan s.trace = .begun w ∧ (u = .write → w = true)
  | .frame u (.addr _) => scan s.trace = .sent (s.frameOp u) true
  | .frame u .data => scan s.trace = .sent (s.frameOp u) true
  | .frame u (.csHigh f) => (u = .wrenSeq → scan s.trace = .sent opWREN (!f)) ∧ ∃ op, scan s.trace = .sent op (!f)
  | .frame u (.txnEnd f) => (u = .wrenSeq → scan s.trace = .closing opWREN (!f)) ∧ ∃ op, scan s.trace = .closing op (!f)
  | .idle | .check | .pin | .waitT0 _ | .pollT _ | .pollY _ | .complete | .failing _ => ∃ w, scan s.trace = .quiet w

/-! ### The splitter as a list (43_write.md R244, R246) -/

/-- A segment: its EEPROM address, its length, the BUF index of its first byte (00_scope.md R17). -/
structure Segment where
  addr : Nat
  len : Nat
  off : Nat
  deriving DecidableEq, Repr

/-- The segments of a cursor, at most `fuel` of them. -/
def segmentsFrom (page : Nat) : Nat → Cursor → List Segment
  | 0, _ => []
  | fuel + 1, c =>
    if c.rem = 0 then [] else ⟨c.segAddr, c.segLen, c.off⟩ :: segmentsFrom page fuel (c.advance page)

/-- The segments of the range [a, a + n). -/
def segments (c : Config) (a n : Nat) : List Segment :=
  segmentsFrom c.page n
    { segAddr := a, segLen := firstSegLen c a n, off := 0, rem := n, k := 0, i := 0, waitStart := 0, sr := 0, d := 0 }

/-! ### Frames as events -/

/-- The events of a frame that sends `tx` and is answered, byte by byte, with ok = true. -/
def frameEvents (clk : Word) (tx : List Byte) (rx : List Byte) : List WireEvent :=
  .cs false :: .beginTxn clk .msbFirst mode0 ::
    ((List.zipWith (fun t r => WireEvent.xfer t r true) tx rx) ++ [.cs true, .endTxn])

/-- The answers of a transport that does not fail. -/
def goodAnswers (rx : List Byte) : List Answer := rx.map fun b => ⟨b, true⟩

/-- What the environment gives one segment of a write whose first poll is ready: the time reading, the two rx bytes of the
poll frame, the rx byte of the WREN frame and the rx bytes of the WRITE frame. -/
structure SegmentInput where
  time : Word
  pollRx : Byte
  status : Byte
  wrenRx : Byte
  writeRx : List Byte

/-- The rx bytes of one segment, in order. -/
def SegmentInput.rx (x : SegmentInput) : List Byte := [x.pollRx, x.status, x.wrenRx] ++ x.writeRx

/-- The events of one written segment (43_write.md R240): the wait, the WREN frame, the WRITE frame. -/
def State.segmentEvents (s : State) (g : Segment) (x : SegmentInput) : List WireEvent :=
  .time x.time :: (frameEvents s.clockHz (frameBytes s.cfg .rdsr) [x.pollRx, x.status] ++
    frameEvents s.clockHz (frameBytes s.cfg .wren) [x.wrenRx] ++
    frameEvents s.clockHz (frameBytes s.cfg (.write g.addr ((List.range g.len).map fun j => s.bufByte (g.off + j)))) x.writeRx)

/-- What the environment gives one segment of an update whose poll is ready and whose bytes compare equal: the time reading, the
two rx bytes of the poll frame, and the rx bytes of the compare frame's opcode and address. -/
structure CompareInput where
  time : Word
  pollRx : Byte
  status : Byte
  head : List Byte

/-- The new bytes of a segment of the update command `i`: WDATA for UPDATE_BYTE, else the segment's BUF bytes (44_update.md R271 to
R273). -/
def State.newBytes (s : State) (i : Instr) (g : Segment) : List Byte :=
  (List.range g.len).map fun j => if i = .updateByte then s.regs.wdata else s.bufByte (g.off + j)

/-- The rx bytes of one equal segment, in order. -/
def State.compareRx (s : State) (i : Instr) (g : Segment) (x : CompareInput) : List Byte :=
  [x.pollRx, x.status] ++ (x.head ++ s.newBytes i g)

/-- The events of one equal segment (44_update.md R270): the wait and the compare frame. -/
def State.compareEvents (s : State) (i : Instr) (g : Segment) (x : CompareInput) : List WireEvent :=
  .time x.time :: (frameEvents s.clockHz (frameBytes s.cfg .rdsr) [x.pollRx, x.status] ++
    frameEvents s.clockHz (frameBytes s.cfg (.read g.addr g.len)) (x.head ++ s.newBytes i g))

/-- The responder after a whole frame of tx bytes, from CS(0) to CS(1) (20_memory.md R101). -/
def Responder.frame (c : Config) (tx : List Byte) (r : Responder) : Responder :=
  (tx.foldl (fun r b => r.hear b) r.onCsLow).onCsHigh c

end Sys2Proof.Machine
end

