-- ==== Sys2Proof/Certificates/Slice0/Obligations.lean ====
section
/-! DEFINITION. The statements for the provers. Each docstring names the rules of spec/ it formalises. Where a statement rests
on a choice of the model, the docstring names the log entry. One choice is common to all that speak of a register access at
HOST_BASE + offset (a CMD write among them): where HOST_BASE is no multiple of 4, that the access counts as aligned by its offset
is the model's (log 25), and no rule cited says it. -/

open Sys2Proof Sys2Proof.Machine

/-! ### Encodings (30_encoding.md) -/

/-- R120, R140: the code of each row, written out bit by bit, decodes to the row's instruction in its encoding space. -/
def Obligations.WordsDecodeToTheTableRows : Prop :=
  decodeHost 0b00000001#8 = some .init ∧ decodeHost 0b00000010#8 = some .deinit ∧
  decodeHost 0b00000011#8 = some .getCapacity ∧ decodeHost 0b00000100#8 = some .getPageSize ∧
  decodeHost 0b00010000#8 = some .readStatus ∧ decodeHost 0b00010001#8 = some .isReady ∧
  decodeHost 0b00010010#8 = some .writeEnable ∧ decodeHost 0b00010011#8 = some .writeDisable ∧
  decodeHost 0b00100000#8 = some .readByte ∧ decodeHost 0b00100001#8 = some .readBlock ∧
  decodeHost 0b00110000#8 = some .writeByte ∧ decodeHost 0b00110001#8 = some .writeBlock ∧
  decodeHost 0b00110010#8 = some .writePage ∧ decodeHost 0b01000000#8 = some .updateByte ∧
  decodeHost 0b01000001#8 = some .updateBlock ∧ decodeHost 0b01000010#8 = some .updatePage ∧
  decodeWire 0b00000011#8 = some .wireRead ∧ decodeWire 0b00001011#8 = some .wireReadA8 ∧
  decodeWire 0b00000010#8 = some .wireWrite ∧ decodeWire 0b00001010#8 = some .wireWriteA8 ∧
  decodeWire 0b00000101#8 = some .wireRdsr ∧ decodeWire 0b00000110#8 = some .wireWren ∧
  decodeWire 0b00000100#8 = some .wireWrdi ∧ decodeWire 0b00000001#8 = some .wireWrsr

/-- R120, R140: decoding an encoded instruction gives it back, and a word that decodes is the word of what it decodes to. -/
def Obligations.EncodeAndDecodeAgree : Prop :=
  (∀ i : Instr, decode i.space (encode i) = some i) ∧
  (∀ (sp : Space) (w : Byte) (i : Instr), decode sp w = some i → encode i = w ∧ i.space = sp)

/-- R122, R124, R127 to R130, 20_memory.md R105: on every valid profile, every frame the sequencer may send is read back from
its tx bytes, its address among them, and has the length the frame formats give. -/
def Obligations.FramesRoundTrip : Prop :=
  ∀ (c : Config) (f : Frame), c.valid = true → f.wellFormed c = true →
    parseFrame c (frameBytes c f) = some f ∧
    (frameBytes c f).length =
      match f with
      | .rdsr => 2
      | .wren | .wrdi => 1
      | .read _ n => 1 + c.nAddr + n
      | .write _ d => 1 + c.nAddr + d.length

/-- R123: the number of address bytes, the address bytes and opcode bit 3 of each capacity class, and that the address has
no bit above the class's width. -/
def Obligations.CapacityClasses : Prop :=
  ∀ (c : Config) (a : Nat), c.valid = true → a < c.cap →
    (c.cap ≤ 256 →
      c.nAddr = 1 ∧ addrBytes c a = [BitVec.ofNat 8 a] ∧ a < 2 ^ 8 ∧
      (wireOp c opREAD a).getLsbD 3 = false ∧ (wireOp c opWRITE a).getLsbD 3 = false) ∧
    (256 < c.cap ∧ c.cap ≤ 512 →
      c.nAddr = 1 ∧ addrBytes c a = [BitVec.ofNat 8 a] ∧ a < 2 ^ 9 ∧
      (wireOp c opREAD a).getLsbD 3 = a.testBit 8 ∧ (wireOp c opWRITE a).getLsbD 3 = a.testBit 8) ∧
    (512 < c.cap ∧ c.cap ≤ 65536 →
      c.nAddr = 2 ∧ addrBytes c a = [BitVec.ofNat 8 (a / 256), BitVec.ofNat 8 a] ∧ a < 2 ^ 16 ∧
      (wireOp c opREAD a).getLsbD 3 = false ∧ (wireOp c opWRITE a).getLsbD 3 = false) ∧
    (65536 < c.cap →
      c.nAddr = 3 ∧ addrBytes c a = [BitVec.ofNat 8 (a / 65536), BitVec.ofNat 8 (a / 256), BitVec.ofNat 8 a] ∧
      a < 2 ^ 24 ∧ (wireOp c opREAD a).getLsbD 3 = false ∧ (wireOp c opWRITE a).getLsbD 3 = false)

/-- R121, R124, R125, with the NINE_BIT class of R10: the alternates of READ and WRITE, when they replace them, and that no other
opcode is ever replaced. -/
def Obligations.OpcodeSubstitution : Prop :=
  (0x03#8 ||| 0x08#8 = 0x0B#8 ∧ 0x02#8 ||| 0x08#8 = 0x0A#8) ∧
  (∀ (c : Config) (a : Nat), 256 < c.cap → c.cap ≤ 512 → a.testBit 8 = true →
    wireOp c 0x03 a = 0x0B ∧ wireOp c 0x02 a = 0x0A) ∧
  (∀ (c : Config) (a : Nat) (op : Byte), ¬(256 < c.cap ∧ c.cap ≤ 512) ∨ a.testBit 8 = false → wireOp c op a = op) ∧
  (∀ (c : Config) (a : Nat), wireOp c 0x05 a = 0x05 ∧ wireOp c 0x06 a = 0x06 ∧ wireOp c 0x04 a = 0x04 ∧ wireOp c 0x01 a = 0x01)

/-! ### Status views (10_state.md R39, R44, R45) -/

/-- R39, R300, R310: the fields of STATUS, each at its bits with the code numbers of the errors and of the fault causes, and the
reserved bits zero. -/
def Obligations.StatusWordFields : Prop :=
  ∀ s : State,
    s.statusWord.getLsbD 0 = decide (s.phase ≠ .idle) ∧ s.statusWord.getLsbD 1 = s.initDone ∧
    s.statusWord.getLsbD 2 = s.fault.isSome ∧ s.statusWord.getLsbD 3 = false ∧
    (s.statusWord.extractLsb' 4 3).toNat =
      (match s.regs.err with
       | .none => 0 | .precondition => 1 | .timeout => 2 | .bus => 3 | .notInit => 4 | .illegalCmd => 5 | .bufRange => 6) ∧
    s.statusWord.getLsbD 7 = false ∧
    (s.statusWord.extractLsb' 8 3).toNat =
      (match s.fault with
       | none => 0 | some .notInit => 4 | some .illegalCmd => 5 | some .bufRange => 6 | some .busyAccess => 7) ∧
    s.statusWord.toNat < 2 ^ 11

/-- R45 with the default layout of R43: every field of SR_FIELDS is the bit of RDATA the rule names. -/
def Obligations.SrFieldsDecodeRdata : Prop :=
  ∀ s : State, s.cfg.srLayout = SrLayout.standard →
    s.srFields.getLsbD 0 = !s.regs.rdata.getLsbD 0 ∧ s.srFields.getLsbD 1 = s.regs.rdata.getLsbD 0 ∧
    s.srFields.getLsbD 2 = s.regs.rdata.getLsbD 1 ∧ s.srFields.extractLsb' 3 2 = s.regs.rdata.extractLsb' 2 2 ∧
    s.srFields.getLsbD 5 = s.regs.rdata.getLsbD 4 ∧ s.srFields.getLsbD 6 = s.regs.rdata.getLsbD 6 ∧
    s.srFields.getLsbD 7 = s.regs.rdata.getLsbD 7 ∧ s.srFields.toNat < 2 ^ 8

/-- R44: the chip is ready exactly when bit 0 of the status byte is 0, and no other bit of it changes what any instruction does:
with two status bytes that agree on bit 0 an instruction answers the same outcome, but for that byte itself (where it is
still held, and where RDATA takes it). -/
def Obligations.OnlyTheReadyBitDecides : Prop :=
  (∀ sr : Byte, chipReady sr = true ↔ sr.getLsbD 0 = false) ∧
  ∀ (i : Instr) (s : State) (x y : Byte), x.getLsbD 0 = y.getLsbD 0 →
    bothRes (fun t u => { u with cur := { u.cur with sr := t.cur.sr }, regs := { u.regs with rdata := t.regs.rdata } } = t)
      (exec i { s with cur := { s.cur with sr := x } }) (exec i { s with cur := { s.cur with sr := y } })

/-! ### Host accesses (10_state.md R32 to R34, R46, 20_memory.md R82, R84, 60_exceptions.md R310) -/

/-- R32, R84: a 32-bit read of each register answers its value, its least significant byte on the lowest lane, and changes
nothing of the block. CMD reads 0. Where HOST_BASE is no multiple of 4, that
such an access is aligned by its offset is the model's choice (log 25). -/
def Obligations.RegisterReads : Prop :=
  (∀ (v : Word) (k : Nat), k < 4 → (lanesOf v)[k]? = some (BitVec.ofNat 8 (v.toNat / 256 ^ k))) ∧
  ∀ (s : State) (r : List Event) (off : Nat) (v : Word), s.cfg.valid = true →
    s.env.sched = .host (.read (s.cfg.hostBase + off) 4) :: r →
    (off, v) ∈ [(0x00, 0), (0x04, s.regs.addr), (0x08, s.regs.len), (0x0C, s.regs.wdata.setWidth 32), (0x10, s.regs.clkcfg),
      (0x14, s.regs.result), (0x18, s.regs.rdata.setWidth 32), (0x1C, s.statusWord), (0x20, s.srFields)] →
    step s = .next { s with hostData := lanesOf v, env := { s.env with sched := r } }

/-- R34: ADDR, LEN, WDATA and CLKCFG take a write at any time with no other effect; a command start copies them into the
latched operands; and what any instruction does does not depend on them. Where HOST_BASE is no multiple of 4, that
such an access is aligned by its offset is the model's choice (log 25). -/
def Obligations.HoldingRegistersAreLatched : Prop :=
  (∀ (s : State) (r : List Event) (v : Word), s.cfg.valid = true →
    (s.env.sched = .host (.write (s.cfg.hostBase + 0x04) (lanesOf v)) :: r →
      step s = .next { s with regs := { s.regs with addr := v }, env := { s.env with sched := r } }) ∧
    (s.env.sched = .host (.write (s.cfg.hostBase + 0x08) (lanesOf v)) :: r →
      step s = .next { s with regs := { s.regs with len := v }, env := { s.env with sched := r } }) ∧
    (s.env.sched = .host (.write (s.cfg.hostBase + 0x0C) (lanesOf v)) :: r →
      step s = .next { s with regs := { s.regs with wdata := v.setWidth 8 }, env := { s.env with sched := r } }) ∧
    (s.env.sched = .host (.write (s.cfg.hostBase + 0x10) (lanesOf v)) :: r →
      step s = .next { s with regs := { s.regs with clkcfg := v }, env := { s.env with sched := r } })) ∧
  (∀ (s : State) (r : List Event) (v : Word) (i : Instr), s.cfg.valid = true → s.phase = .idle →
    s.env.sched = .host (.write s.cfg.hostBase (lanesOf v)) :: r → hostInstr s.cfg (v.setWidth 8) = some i →
    step s = exec i { s with
      lat := { code := v.setWidth 8, addr := s.regs.addr, len := s.regs.len, data := s.regs.wdata, clk := s.regs.clkcfg }
      phase := .check
      env := { s.env with sched := r } }) ∧
  (∀ (i : Instr) (s : State) (addr len : Word) (wdata : Byte) (clkcfg : Word),
    exec i (s.withHolding addr len wdata clkcfg) = mapRes (State.withHolding addr len wdata clkcfg) (exec i s))

/-- R33: a CMD write starts the command of its low byte while idle (an illegal code completes at once, R309) and is ignored and
recorded while busy, whatever bits 31:8 are; CMD reads 0; and nothing else starts a command. Where HOST_BASE is no multiple of 4, that
such an access is aligned by its offset is the model's choice (log 25). -/
def Obligations.CmdWriteStartsOrIsRecorded : Prop :=
  (∀ (s : State) (r : List Event) (v : Word), s.cfg.valid = true →
    s.env.sched = .host (.write s.cfg.hostBase (lanesOf v)) :: r →
    (s.phase = .idle → ∀ i, hostInstr s.cfg (v.setWidth 8) = some i →
      step s = exec i { s with lat := s.regs.latched v, phase := .check, env := { s.env with sched := r } }) ∧
    (s.phase = .idle → hostInstr s.cfg (v.setWidth 8) = none →
      step s = .next { s with
        regs := { s.regs with result := 0, err := .illegalCmd }, fault := some (s.fault.getD .illegalCmd)
        lat := s.regs.latched v, env := { s.env with sched := r } }) ∧
    (s.phase ≠ .idle →
      step s = .next { s with fault := some (s.fault.getD .busyAccess), env := { s.env with sched := r } })) ∧
  (∀ (s : State) (r : List Event), s.cfg.valid = true → s.env.sched = .host (.read s.cfg.hostBase 4) :: r →
    step s = .next { s with hostData := [0, 0, 0, 0], env := { s.env with sched := r } }) ∧
  (∀ s t : State, step s = .next t → s.phase = .idle → t.phase ≠ .idle →
    ∃ (lanes : List Byte) (r : List Event), lanes.length = 4 ∧ s.env.sched = .host (.write s.cfg.hostBase lanes) :: r)

/-- R46, R310: while idle a byte written to BUF[i] reads back and every other BUF byte is unchanged; while busy a BUF write is
dropped, a BUF read answers 0, and the first such access is recorded as BUSY_ACCESS. -/
def Obligations.BufferAccessesOnlyWhileIdle : Prop :=
  ∀ (s : State) (r : List Event) (i : Nat) (b : Byte), s.cfg.valid = true → i < s.cfg.bufBytes →
    (s.env.sched = .host (.write (s.cfg.hostBase + 0x1000 + i) [b]) :: r →
      (s.phase = .idle → ∃ t, step s = .next t ∧ t = { s with buf := t.buf, env := { s.env with sched := r } } ∧
        t.bufByte i = b ∧ ∀ j, j ≠ i → t.bufByte j = s.bufByte j) ∧
      (s.phase ≠ .idle →
        step s = .next { s with fault := some (s.fault.getD .busyAccess), env := { s.env with sched := r } })) ∧
    (s.env.sched = .host (.read (s.cfg.hostBase + 0x1000 + i) 1) :: r →
      (s.phase = .idle → step s = .next { s with hostData := [s.bufByte i], env := { s.env with sched := r } }) ∧
      (s.phase ≠ .idle → step s =
        .next { s with hostData := [0], fault := some (s.fault.getD .busyAccess), env := { s.env with sched := r } }))

/-- R32, R39, R82, R84: an access that is neither an aligned 32-bit access at offsets 0x00 to 0x23 of the host window nor an 8-bit
access to BUF is ignored if a write and answers 0 on every lane if a read, below the window too; and a 32-bit write to a
read-only register (RESULT, RDATA, STATUS, SR_FIELDS) is ignored. That such an access records no fault while BUSY = 1 either, a
wide or misplaced access in the BUF range among them, is the model's reading (log 12), not words of R82, R84 or R310. Where HOST_BASE is no multiple of 4, that
such an access is aligned by its offset is the model's choice (log 25). -/
def Obligations.OtherAccessesDoNothing : Prop :=
  (∀ (s : State) (r : List Event) (a : Nat), s.cfg.valid = true →
    (∀ lanes : List Byte, s.env.sched = .host (.write a lanes) :: r →
      ¬(s.cfg.hostBase ≤ a ∧ a < s.cfg.hostBase + 0x24 ∧ (a - s.cfg.hostBase) % 4 = 0 ∧ lanes.length = 4) →
      ¬(s.cfg.hostBase + 0x1000 ≤ a ∧ a < s.cfg.hostBase + 0x1000 + s.cfg.bufBytes ∧ lanes.length = 1) →
      step s = .next { s with env := { s.env with sched := r } }) ∧
    (∀ size : Nat, s.env.sched = .host (.read a size) :: r →
      ¬(s.cfg.hostBase ≤ a ∧ a < s.cfg.hostBase + 0x24 ∧ (a - s.cfg.hostBase) % 4 = 0 ∧ size = 4) →
      ¬(s.cfg.hostBase + 0x1000 ≤ a ∧ a < s.cfg.hostBase + 0x1000 + s.cfg.bufBytes ∧ size = 1) →
      step s = .next { s with hostData := List.replicate size 0, env := { s.env with sched := r } })) ∧
  (∀ (s : State) (r : List Event) (off : Nat) (lanes : List Byte), s.cfg.valid = true → lanes.length = 4 →
    off ∈ [0x14, 0x18, 0x1C, 0x20] → s.env.sched = .host (.write (s.cfg.hostBase + off) lanes) :: r →
    step s = .next { s with env := { s.env with sched := r } })

/-! ### What a step runs (10_state.md R36, 60_exceptions.md R301) -/

/-- R36, R301: the sequencer moves where the schedule names it (`seq`), names nobody, or has the host waiting for idle (`waitIdle`)
while a command runs; its step is the meaning of the wire opcode of the open frame, or of the running command between frames, and
an idle sequencer changes nothing. A CMD write to an idle block is the meaning of the command it names. A grant or a withdrawal of
the bus changes only that (10_state.md R53), and a host that waits for idle reads STATUS once BUSY is 0. The schedule is the model's
own (log 6). -/
def Obligations.StepRunsTheFetchedInstruction : Prop :=
  ∀ (s : State), s.cfg.valid = true →
    (∀ q : State,
      (s.env.sched = [] ∧ q = s ∨ (∃ r, s.env.sched = .seq :: r ∧ q = { s with env := { s.env with sched := r } }) ∨
        (∃ r, s.env.sched = .waitIdle :: r) ∧ s.phase ≠ .idle ∧ q = s) →
      (s.phase = .idle → step s = .next q) ∧
      (∀ u pt i, s.phase = .frame u pt → decodeWire (s.frameOp u) = some i → step s = exec i q) ∧
      (∀ i, s.phase ≠ .idle → (∀ u pt, s.phase ≠ .frame u pt) → hostInstr s.cfg s.lat.code = some i → step s = exec i q)) ∧
    (∀ r v i, s.phase = .idle → s.env.sched = .host (.write s.cfg.hostBase (lanesOf v)) :: r →
      hostInstr s.cfg (v.setWidth 8) = some i →
      step s = exec i { s with lat := s.regs.latched v, phase := .check, env := { s.env with sched := r } }) ∧
    (∀ r g, s.env.sched = .bus g :: r → step s = .next { s with env := { s.env with sched := r, busFree := g } }) ∧
    (∀ r, s.phase = .idle → s.env.sched = .waitIdle :: r →
      step s = .next { s with hostData := lanesOf s.statusWord, env := { s.env with sched := r } })

/-! ### Completion, errors and faults (60_exceptions.md) -/

/-- R302, R303: every command with bus activity, at a failed point, completes with RESULT = 0 and the error's code, and
changes nothing else. -/
def Obligations.FailedCommandCompletes : Prop :=
  ∀ (i : Instr) (s : State) (c : ErrCode), isBusCommand i = true → s.phase = .failing c →
    exec i s = .next { s with regs := { s.regs with result := 0, err := c }, phase := .idle }

/-- R308: each of the twelve bus commands, started while `initDone` = 0, completes at once with the fault NOT_INIT and no
other effect; INIT, DEINIT, GET_CAPACITY and GET_PAGE_SIZE do not look at `initDone`. -/
def Obligations.BusCommandsRequireInit : Prop :=
  (∀ (i : Instr) (s : State), isBusCommand i = true → s.phase = .check → s.initDone = false →
    exec i s = .next { s with
      regs := { s.regs with result := 0, err := .notInit }, fault := some (s.fault.getD .notInit), phase := .idle }) ∧
  (∀ (i : Instr), isBusCommand i = true ↔ i ∈ [Instr.readStatus, .isReady, .writeEnable, .writeDisable, .readByte, .readBlock,
    .writeByte, .writePage, .writeBlock, .updateByte, .updatePage, .updateBlock]) ∧
  (∀ (i : Instr) (s : State), i ∈ [Instr.init, .deinit, .getCapacity, .getPageSize] → s.phase = .check →
    ∃ t, exec i s = .next t ∧ exec i { s with initDone := !s.initDone } = .next { t with initDone := !s.initDone } ∧
      t.initDone = s.initDone)

/-- R305: a range beyond CAP, or a page command whose range fails PageCheck, completes at once with RESULT = 0 and
PRECONDITION, and neither the trace, nor the chip, nor BUF, nor anything else changes. The sum does not wrap (00_scope.md
R11). -/
def Obligations.OutOfRangeRequestFails : Prop :=
  ∀ (i : Instr) (s : State), s.phase = .check → s.initDone = true →
    (i ∈ [Instr.readByte, .writeByte, .updateByte] ∧ s.cfg.cap < s.lat.addr.toNat + 1 ∨
     i ∈ [Instr.readBlock, .writeBlock, .updateBlock] ∧ s.cfg.cap < s.lat.addr.toNat + s.lat.len.toNat ∨
     i ∈ [Instr.writePage, .updatePage] ∧
       (s.cfg.cap < s.lat.addr.toNat + s.lat.len.toNat ∨
        s.cfg.page < s.lat.addr.toNat % s.cfg.page + s.lat.len.toNat)) →
    exec i s = .next { s with regs := { s.regs with result := 0, err := .precondition }, phase := .idle }

/-- R310, R304 and 92 D18: after the range check, a block or page command longer than BUF completes at once with the fault
BUF_RANGE, and an empty one with RESULT = 0 and no error; neither has another effect. -/
def Obligations.LongAndEmptyRequests : Prop :=
  ∀ (i : Instr) (s : State), s.phase = .check → s.initDone = true →
    (i ∈ [Instr.readBlock, .writeBlock, .updateBlock] ∨
      i ∈ [Instr.writePage, .updatePage] ∧ s.lat.addr.toNat % s.cfg.page + s.lat.len.toNat ≤ s.cfg.page) →
    s.lat.addr.toNat + s.lat.len.toNat ≤ s.cfg.cap →
    (s.cfg.bufBytes < s.lat.len.toNat →
      exec i s = .next { s with
        regs := { s.regs with result := 0, err := .bufRange }, fault := some (s.fault.getD .bufRange), phase := .idle }) ∧
    (s.lat.len = 0 → exec i s = .next { s with regs := { s.regs with result := 0, err := .none }, phase := .idle })

/-- R142, R309: a CMD write whose code is illegal completes at once: RESULT = 0, ERR = ILLEGAL_CMD, the fault recorded, no bus
activity, and nothing but RESULT, STATUS and the latched operands changed. Where HOST_BASE is no multiple of 4, that
such an access is aligned by its offset is the model's choice (log 25). -/
def Obligations.IllegalCommandCompletesAtOnce : Prop :=
  ∀ (s : State) (r : List Event) (v : Word) (c : Nat), s.cfg.valid = true → s.phase = .idle →
    s.env.sched = .host (.write s.cfg.hostBase (lanesOf v)) :: r → c = v.toNat % 256 →
    (c = 0 ∨ (0x05 ≤ c ∧ c ≤ 0x0F) ∨ (0x14 ≤ c ∧ c ≤ 0x1F) ∨ (0x22 ≤ c ∧ c ≤ 0x2F) ∨ (0x33 ≤ c ∧ c ≤ 0x3F) ∨ 0x43 ≤ c ∨
      (s.cfg.hasUpdate = false ∧ 0x40 ≤ c ∧ c ≤ 0x42)) →
    step s = .next { s with
      regs := { s.regs with result := 0, err := .illegalCmd }
      fault := some (s.fault.getD .illegalCmd)
      lat := s.regs.latched v
      env := { s.env with sched := r } }

/-- R39, R308, R309, R310: a recorded fault stays as it is in every step but a reset, and a step that records one into an empty
record records a cause of R310 for that cause's reason: a host access while busy; a CMD write with an illegal code to an idle
block; a bus command started, by a CMD write to an idle block or at its checks, while `initDone` = 0; a block or page command
started so with more bytes than BUF has. -/
def Obligations.FirstFaultIsKept : Prop :=
  ∀ s t : State, step s = .next t → (∀ r, s.env.sched ≠ .reset :: r) →
    (∀ c, s.fault = some c → t.fault = some c) ∧
    (s.fault = none → t.fault = some .busyAccess → s.phase ≠ .idle ∧ ∃ op r, s.env.sched = .host op :: r) ∧
    (s.fault = none → t.fault = some .illegalCmd → s.phase = .idle ∧
      ∃ b x y z r, s.env.sched = .host (.write s.cfg.hostBase [b, x, y, z]) :: r ∧ hostInstr s.cfg b = none) ∧
    (s.fault = none → t.fault = some .notInit → s.initDone = false ∧
      ∃ i, isBusCommand i = true ∧ hostInstr s.cfg t.lat.code = some i ∧
        (s.phase = .check ∨
          s.phase = .idle ∧ ∃ x y z r, s.env.sched = .host (.write s.cfg.hostBase [t.lat.code, x, y, z]) :: r)) ∧
    (s.fault = none → t.fault = some .bufRange → s.initDone = true ∧ s.cfg.bufBytes < t.lat.len.toNat ∧
      ∃ i, i ∈ [Instr.readBlock, .writeBlock, .writePage, .updateBlock, .updatePage] ∧ hostInstr s.cfg t.lat.code = some i ∧
        (s.phase = .check ∨
          s.phase = .idle ∧ ∃ x y z r, s.env.sched = .host (.write s.cfg.hostBase [t.lat.code, x, y, z]) :: r))

/-- R340, R341: a reset sets every register to 0, STATUS to 0, SR_FIELDS to 1, `initDone` and `clockHz` to 0, the chip-select
line to Z, the phase to IDLE and the trace to empty, and keeps the configuration, in one step from any phase; an attached chip
is as it was when no command ran, and else each byte of the abandoned command's write range is the old or the new one and every
other byte is as it was. R340 says that BUF is unspecified: that no BUF byte is stored after it is the model's choice of how to say
so (log 4). Of the attached chip these are the model's (log 9), not words of R341: that the bytes of a pending write cycle outside
the range are committed (and all of them where the range is empty); that nothing is pending after it (`pend`); that the bytes heard
of the frame cut short are dropped (`heard`); that SR bits 7:2 (`srHigh`) and BUSY_POLLS (`busyPolls`) are kept; that the write
range of a command still at its checks is empty; and that the old bytes stand in `env.before`. That the latched operands and the
cursor are 0 is the model's choice too (log 5), and not stated; nothing is stated of WEL, WIP and the polls left, which R341 leaves
unknown. -/
def Obligations.ResetValues : Prop :=
  ∀ (s : State) (r : List Event), s.cfg.valid = true → s.env.sched = .reset :: r →
    ∃ t, step s = .next t ∧ t.cfg = s.cfg ∧
      t.regs = { addr := 0, len := 0, wdata := 0, clkcfg := 0, result := 0, rdata := 0, err := .none } ∧
      t.statusWord = 0 ∧ t.srFields = 1 ∧ t.initDone = false ∧ t.clockHz = 0 ∧ t.cs = .z ∧ t.phase = .idle ∧ t.trace = [] ∧
      (∀ i, t.buf.get? i = none) ∧ t.env.sched = r ∧
      (s.env.chip = none → t.env.chip = none) ∧ (s.phase = .idle → t.env.chip = s.env.chip) ∧
      ∀ q, s.env.chip = some q → s.phase ≠ .idle →
        ∃ w, t.env.chip = some w ∧ w.pend = [] ∧ w.heard = none ∧ w.srHigh = q.srHigh ∧ w.busyPolls = q.busyPolls ∧
          (s.phase = .check ∨ writesArray s.command = false → ∀ x, w.byteAt x = q.endCycle.byteAt x) ∧
          (writesArray s.command = true → ∀ n, n = (if isByteCommand s.command then 1 else s.lat.len.toNat) →
            (∀ x, x < s.lat.addr.toNat ∨ s.lat.addr.toNat + n ≤ x → w.byteAt x = q.endCycle.byteAt x) ∧
            (s.phase ≠ .check → ∀ j, j < n → w.byteAt (s.lat.addr.toNat + j) = arrayByte s.env.before (s.lat.addr.toNat + j) ∨
              w.byteAt (s.lat.addr.toNat + j) = if isByteCommand s.command then s.lat.data else s.bufByte j))

/-! ### Control commands (40_control.md) -/

/-- R170: INIT takes the clock and drives the line high in its first step, and reports success with `initDone` = 1 in its
second; it changes nothing else of the block. -/
def Obligations.InitTakesClockAndPin : Prop :=
  (∀ s : State, s.phase = .check →
    exec .init s = .next { s with
      clockHz := if s.lat.clk = 0 then s.cfg.defaultClockHz else s.lat.clk
      cs := .high
      trace := s.trace ++ [.cs true]
      env := { s.env with chip := s.env.chip.map (Responder.onCsHigh s.cfg) }
      phase := .pin }) ∧
  (∀ s : State, s.phase = .pin →
    exec .init s = .next { s with
      initDone := true, regs := { s.regs with result := 1, err := .none }, phase := .idle })

/-- R172, R36: DEINIT releases the line in its first step, and reports success with `initDone` = 0 in its second, whether or not the
block was initialised; clockHz and everything else is kept. That these are two steps, with `initDone` kept and cs = Z between them,
is the model's reading of R172 with R36, above R51's cs = 1 whenever `initDone` = 1 (log 11). -/
def Obligations.DeinitReleasesPin : Prop :=
  (∀ s : State, s.phase = .check →
    exec .deinit s = .next { s with cs := .z, trace := s.trace ++ [.csz], phase := .pin }) ∧
  (∀ s : State, s.phase = .pin →
    exec .deinit s = .next { s with
      initDone := false, regs := { s.regs with result := 1, err := .none }, phase := .idle })

/-- R173, R174: GET_CAPACITY and GET_PAGE_SIZE complete in one step with RESULT = CAP and RESULT = P, without bus activity and
whatever `initDone` is; on a valid profile both fit RESULT. -/
def Obligations.CapacityAndPageSize : Prop :=
  ∀ s : State, s.phase = .check →
    exec .getCapacity s =
      .next { s with regs := { s.regs with result := BitVec.ofNat 32 s.cfg.cap, err := .none }, phase := .idle } ∧
    exec .getPageSize s =
      .next { s with regs := { s.regs with result := BitVec.ofNat 32 s.cfg.page, err := .none }, phase := .idle } ∧
    (s.cfg.valid = true →
      (BitVec.ofNat 32 s.cfg.cap).toNat = s.cfg.cap ∧ (BitVec.ofNat 32 s.cfg.page).toNat = s.cfg.page)

/-! ### Status commands (41_status.md) -/

/-- R191 to R194, R199: an initialised status command opens its one frame at once, without a wait: RDSR for READ_STATUS and
IS_READY, WREN for WRITE_ENABLE, WRDI for WRITE_DISABLE. -/
def Obligations.StatusCommandsOpenTheirFrame : Prop :=
  ∀ (i : Instr) (u : FrameUse) (s : State),
    (i, u) ∈ [(Instr.readStatus, FrameUse.status), (.isReady, .status), (.writeEnable, .wrenCmd), (.writeDisable, .wrdi)] →
    s.phase = .check → s.initDone = true →
    exec i s = .next { s with
      cs := .low
      trace := s.trace ++ [.cs false]
      env := { s.env with chip := s.env.chip.map Responder.onCsLow }
      phase := .frame u .txnBegin }

/-- R191 to R194: the status commands at their completion: RDATA takes the status byte, and RESULT is 1, or for IS_READY
whether bit 0 is 0; nothing else changes. -/
def Obligations.StatusCommandsComplete : Prop :=
  ∀ s : State, s.phase = .complete →
    exec .readStatus s =
      .next { s with regs := { s.regs with rdata := s.cur.sr, result := 1, err := .none }, phase := .idle } ∧
    exec .isReady s =
      .next { s with
        regs := { s.regs with rdata := s.cur.sr, result := if s.cur.sr.getLsbD 0 then 0 else 1, err := .none }
        phase := .idle } ∧
    exec .writeEnable s = .next { s with regs := { s.regs with result := 1, err := .none }, phase := .idle } ∧
    exec .writeDisable s = .next { s with regs := { s.regs with result := 1, err := .none }, phase := .idle }

/-- R190, R191, R192: from a CMD write of READ_STATUS or IS_READY to an idle, initialised block whose bus is granted and whose
transfers succeed, eight steps emit exactly one RDSR frame and complete with the drawn status byte in RDATA and the result of
the rule; BUF, the fault record and the clock are as before. -/
def Obligations.StatusReadRun : Prop :=
  ∀ (i : Instr) (s : State) (p sr : Byte) (rest : List Answer), i = .readStatus ∨ i = .isReady →
    s.cfg.valid = true → s.phase = .idle → s.initDone = true → s.env.busFree = true → s.env.chip = none →
    s.env.sched = [.host (.write s.cfg.hostBase (lanesOf ((encode i).setWidth 32)))] →
    s.env.answers = goodAnswers [p, sr] ++ rest →
    ∃ t, runSteps 8 s = .next t ∧ t.phase = .idle ∧ t.cs = .high ∧
      t.trace = s.trace ++ frameEvents s.clockHz [0x05, s.cfg.dummyTx] [p, sr] ∧
      t.regs = { s.regs with
        rdata := sr, err := .none, result := if i = .readStatus then 1 else if sr.getLsbD 0 then 0 else 1 } ∧
      t.buf = s.buf ∧ t.fault = s.fault ∧ t.clockHz = s.clockHz ∧ t.initDone = true ∧ t.env.answers = rest

/-- R130, R193, R194: from a CMD write of WRITE_ENABLE or WRITE_DISABLE, seven steps emit exactly the one-byte frame 0x06 or 0x04
and complete with RESULT = 1. -/
def Obligations.LatchCommandRun : Prop :=
  ∀ (i : Instr) (op : Byte) (s : State) (p : Byte) (rest : List Answer),
    (i = .writeEnable ∧ op = 0x06 ∨ i = .writeDisable ∧ op = 0x04) →
    s.cfg.valid = true → s.phase = .idle → s.initDone = true → s.env.busFree = true → s.env.chip = none →
    s.env.sched = [.host (.write s.cfg.hostBase (lanesOf ((encode i).setWidth 32)))] →
    s.env.answers = goodAnswers [p] ++ rest →
    ∃ t, runSteps 7 s = .next t ∧ t.phase = .idle ∧ t.cs = .high ∧
      t.trace = s.trace ++ frameEvents s.clockHz [op] [p] ∧ t.regs = { s.regs with err := .none, result := 1 } ∧
      t.buf = s.buf ∧ t.fault = s.fault ∧ t.env.answers = rest

/-! ### WaitForReady (41_status.md R196 to R201) -/

/-- R196, R200: the three points of the wait, for every command that waits: the first reading, the time check after a busy poll
(TIMEOUT when the modular elapsed time exceeds T_WAIT_US, strictly), and the Yield; each emits its one event. -/
def Obligations.PollerSteps : Prop :=
  ∀ (i : Instr) (r : WaitRet) (s : State), i ∈ [Instr.readByte, .readBlock, .writeByte, .writeBlock, .writePage, .updateByte,
      .updateBlock, .updatePage] →
    (s.phase = .waitT0 r → exec i s = .next { s with
      trace := s.trace ++ [.time s.nowValue], env := s.env.afterNow, cur := { s.cur with waitStart := s.nowValue }
      phase := .frame (.poll r) .csLow }) ∧
    (s.phase = .pollT r → exec i s = .next { s with
      trace := s.trace ++ [.time s.nowValue], env := s.env.afterNow
      phase := if s.cfg.twcMaxUs + 1000 < (s.nowValue.toNat + 2 ^ 32 - s.cur.waitStart.toNat) % 2 ^ 32
        then .failing .timeout else .pollY r }) ∧
    (s.phase = .pollY r → exec i s = .next { s with trace := s.trace ++ [.yield], phase := .frame (.poll r) .csLow })

/-- R196, R197, R198 (c) to (e), R307: a wait whose polls are all answered busy, with readings t0 + e for elapsed times e below 2^32
since its first reading t0, of which only the last exceeds T_WAIT_US: not before the last reading, and right after it, the command
ends with RESULT = 0 and TIMEOUT, after one RDSR frame and one reading for each poll and a Yield between polls, with the line high
and RDATA, BUF and the fault record unchanged. -/
def Obligations.WaitEndsWithTimeout : Prop :=
  ∀ (i : Instr) (r : WaitRet) (s : State) (polls : List (Nat × Byte × Byte)) (last : Nat × Byte × Byte) (ts : List Word)
    (rest : List Answer),
    s.cfg.valid = true → hostInstr s.cfg s.lat.code = some i → waitsFor i r = true → s.phase = .frame (.poll r) .csLow →
    s.env.sched = [] → s.env.busFree = true → s.env.chip = none →
    (∀ x ∈ polls, x.1 ≤ s.cfg.twcMaxUs + 1000) → s.cfg.twcMaxUs + 1000 < last.1 →
    (∀ x ∈ polls ++ [last], x.1 < 2 ^ 32 ∧ x.2.2.getLsbD 0 = true) →
    s.env.times = (polls ++ [last]).map (fun x => s.cur.waitStart + BitVec.ofNat 32 x.1) ++ ts →
    s.env.answers = (polls ++ [last]).flatMap (fun x => goodAnswers [x.2.1, x.2.2]) ++ rest →
    (∀ k t, k ≤ 8 * polls.length + 7 → runSteps k s = .next t → t.phase ≠ .idle ∧ t.regs = s.regs) ∧
    ∃ t, runSteps (8 * polls.length + 8) s = .next t ∧ t.phase = .idle ∧ t.cs = .high ∧
      t.regs = { s.regs with result := 0, err := .timeout } ∧ t.buf = s.buf ∧ t.fault = s.fault ∧
      t.trace = s.trace ++ (polls.flatMap (fun x => frameEvents s.clockHz [0x05, s.cfg.dummyTx] [x.2.1, x.2.2] ++
          [.time (s.cur.waitStart + BitVec.ofNat 32 x.1), .yield]) ++
        (frameEvents s.clockHz [0x05, s.cfg.dummyTx] [last.2.1, last.2.2] ++
          [.time (s.cur.waitStart + BitVec.ofNat 32 last.1)])) ∧
      t.env.answers = rest ∧ t.env.times = ts

/-- R196, R198 (b): after a poll frame a ready status byte returns to the caller of the wait (the READ frame, the WREN frame or
the compare frame) and a busy one goes on to the time check; RDATA is not written. -/
def Obligations.PollAnswerDecides : Prop :=
  ∀ (r : WaitRet) (s : State), s.phase = .frame (.poll r) (.txnEnd false) →
    exec .wireRdsr s = .next { s with
      trace := s.trace ++ [.endTxn]
      phase := if s.cur.sr.getLsbD 0 then .pollT r
        else match r with
          | .read => .frame .read .csLow
          | .write => .frame .wrenSeq .csLow
          | .compare => .frame .compare .csLow }

/-! ### Read, write and update commands: start and completion (42_read.md, 43_write.md, 44_update.md) -/

/-- R221, R222: a read command whose checks pass starts with the first reading of its wait, and at its completion reports its
byte in RDATA with RESULT = 1, or its count. -/
def Obligations.ReadCommandsStartAndComplete : Prop :=
  ∀ s : State,
    (s.phase = .check → s.initDone = true → s.lat.addr.toNat + 1 ≤ s.cfg.cap →
      exec .readByte s = .next { s with
        trace := s.trace ++ [.time s.nowValue], env := s.env.afterNow, cur := { s.cur with waitStart := s.nowValue }
        phase := .frame (.poll .read) .csLow }) ∧
    (s.phase = .check → s.initDone = true → s.lat.addr.toNat + s.lat.len.toNat ≤ s.cfg.cap →
      s.lat.len.toNat ≤ s.cfg.bufBytes → s.lat.len ≠ 0 →
      exec .readBlock s = .next { s with
        trace := s.trace ++ [.time s.nowValue], env := s.env.afterNow, cur := { s.cur with waitStart := s.nowValue }
        phase := .frame (.poll .read) .csLow }) ∧
    (s.phase = .complete →
      exec .readByte s =
        .next { s with regs := { s.regs with rdata := s.cur.d, result := 1, err := .none }, phase := .idle } ∧
      exec .readBlock s = .next { s with regs := { s.regs with result := s.lat.len, err := .none }, phase := .idle })

/-- R242 to R245, R271 to R273: a write or update command whose checks pass starts with the first reading of the wait of its first
segment, which is the whole range for a byte or page command and min(P − (a mod P), n) for a block command; the write commands
wait for the WREN frame, the update commands for the compare frame. The array of an attached responder is kept as the old bytes of
R341 (log 9). -/
def Obligations.SegmentCommandsStart : Prop :=
  ∀ (i : Instr) (r : WaitRet) (s : State) (n len : Nat), s.cfg.valid = true → s.phase = .check → s.initDone = true →
    s.lat.code = encode i →
    (i ∈ [Instr.writeByte, .writeBlock, .writePage] ∧ r = .write ∨
      i ∈ [Instr.updateByte, .updateBlock, .updatePage] ∧ r = .compare) →
    (i ∈ [Instr.writeByte, .updateByte] ∧ n = 1 ∧ len = 1 ∨
      i ∈ [Instr.writePage, .updatePage] ∧ n = s.lat.len.toNat ∧ len = n ∧ s.lat.addr.toNat % s.cfg.page + n ≤ s.cfg.page ∨
      i ∈ [Instr.writeBlock, .updateBlock] ∧ n = s.lat.len.toNat ∧
        len = min (s.cfg.page - s.lat.addr.toNat % s.cfg.page) n) →
    1 ≤ n → s.lat.addr.toNat + n ≤ s.cfg.cap → (i ∈ [Instr.writeByte, .updateByte] ∨ n ≤ s.cfg.bufBytes) →
    exec i s = .next { s with
      trace := s.trace ++ [.time s.nowValue]
      env := s.env.keepBefore.afterNow
      cur := { s.cur with
        segAddr := s.lat.addr.toNat, segLen := len, off := 0, rem := n, k := 0, i := 0, waitStart := s.nowValue }
      phase := .frame (.poll r) .csLow }

/-- R242, R243, R245, R271 to R273: at its completion a write or update command reports its count, 1 for the byte commands, and
changes nothing else, BUF included. -/
def Obligations.SegmentCommandsComplete : Prop :=
  ∀ (i : Instr) (s : State), s.phase = .complete →
    (i ∈ [Instr.writeByte, .updateByte] →
      exec i s = .next { s with regs := { s.regs with result := 1, err := .none }, phase := .idle }) ∧
    (i ∈ [Instr.writeBlock, .writePage, .updateBlock, .updatePage] →
      exec i s = .next { s with regs := { s.regs with result := s.lat.len, err := .none }, phase := .idle })

/-! ### Frames (30_encoding.md R126 to R134) -/

/-- R126, R306, 10_state.md R53, 41_status.md R190 to R194, 43_write.md R240: the points of a frame that transfer nothing, for every
opcode the sequencer sends: CS(0), BEGIN with the clock and the fixed bus parameters (a hold while the bus is not granted),
CS(1), END of a failed frame, which fails the command with BUS, and END of a frame that was not cut short: it completes a status
command and a read command, and the WREN frame of a write sequence is followed by its WRITE frame. (The END of a poll, of a WRITE
and of a compare frame is PollAnswerDecides and SegmentLoopAdvances.) What an attached responder makes of a frame cut short is
`Env.cutShort` (ResponderReadsBackWhatWasWritten, log 24). -/
def Obligations.FramePointSteps : Prop :=
  ∀ (i : Instr) (u : FrameUse) (s : State), i ∈ [Instr.wireRead, .wireReadA8, .wireWrite, .wireWriteA8, .wireRdsr, .wireWren, .wireWrdi] →
    s.frameOp u = encode i →
    (s.phase = .frame u .csLow → exec i s = .next { s with
      cs := .low, trace := s.trace ++ [.cs false], env := { s.env with chip := s.env.chip.map Responder.onCsLow }
      phase := .frame u .txnBegin }) ∧
    (s.phase = .frame u .txnBegin → s.env.busFree = true → exec i s = .next { s with
      trace := s.trace ++ [.beginTxn s.clockHz .msbFirst ⟨false, false⟩], phase := .frame u .opcode }) ∧
    (s.phase = .frame u .txnBegin → s.env.busFree = false → exec i s = .next s) ∧
    (s.phase = .frame u (.csHigh false) → exec i s = .next { s with
      cs := .high, trace := s.trace ++ [.cs true], env := { s.env with chip := s.env.chip.map (Responder.onCsHigh s.cfg) }
      phase := .frame u (.txnEnd false) }) ∧
    (s.phase = .frame u (.csHigh true) → exec i s = .next { s with
      cs := .high, trace := s.trace ++ [.cs true], env := s.env.cutShort s.cfg (s.frameRange u)
      phase := .frame u (.txnEnd true) }) ∧
    (s.phase = .frame u (.txnEnd true) → exec i s = .next { s with
      trace := s.trace ++ [.endTxn], phase := .failing .bus }) ∧
    (s.phase = .frame u (.txnEnd false) → u ∈ [FrameUse.status, .read, .wrenCmd, .wrdi] → exec i s = .next { s with
      trace := s.trace ++ [.endTxn], phase := .complete }) ∧
    (s.phase = .frame u (.txnEnd false) → u = .wrenSeq → exec i s = .next { s with
      trace := s.trace ++ [.endTxn], phase := .frame .write .csLow })

/-- R126, R306: the opcode and the address bytes of a frame, for every opcode the sequencer sends: the opcode byte goes out
first, then the address bytes in the encoder's order; a failed transfer leads to the closing of the frame. The event holds the
byte sent and the answer; nothing else of the block changes but the cursor where a data phase begins. -/
def Obligations.OpcodeAndAddressAreSent : Prop :=
  ∀ (i : Instr) (u : FrameUse) (s : State), i ∈ [Instr.wireRead, .wireReadA8, .wireWrite, .wireWriteA8, .wireRdsr, .wireWren, .wireWrdi] →
    s.frameOp u = encode i →
    ∀ (j : Nat) (tx : Byte),
      (s.phase = .frame u .opcode ∧ tx = encode i ∧ j = 0 ∨
        ∃ m, s.phase = .frame u (.addr m) ∧ (s.frameAddr u)[m]? = some tx ∧ j = m + 1) →
      ∃ t, exec i s = .next t ∧
        t = { s with trace := t.trace, env := t.env, cur := t.cur, phase := t.phase } ∧
        t.trace = s.trace ++ [.xfer tx s.xferAnswer.rx s.xferAnswer.ok] ∧ t.env = s.env.afterXfer tx ∧
        (s.xferAnswer.ok = false → t.cur = s.cur ∧ t.phase = .frame u (.csHigh true)) ∧
        (s.xferAnswer.ok = true → j < (s.frameAddr u).length → t.cur = s.cur ∧ t.phase = .frame u (.addr j)) ∧
        (s.xferAnswer.ok = true → (s.frameAddr u).length ≤ j →
          (i ∈ [Instr.wireWren, .wireWrdi] → t.cur = s.cur ∧ t.phase = .frame u (.csHigh false)) ∧
          (i ∉ [Instr.wireWren, .wireWrdi] → t.phase = .frame u .data ∧
            t.cur = { s.cur with i := 0, k := if u = .compare then s.cur.segLen else s.cur.k }))

/-- R129, R133, R190: the data phase of RDSR sends the dummy byte and keeps the answer as the status byte. -/
def Obligations.StatusByteIsKept : Prop :=
  ∀ (u : FrameUse) (s : State), (u = .status ∨ ∃ r, u = .poll r) → s.phase = .frame u .data →
    (s.xferAnswer.ok = true → exec .wireRdsr s = .next { s with
      trace := s.trace ++ [.xfer s.cfg.dummyTx s.xferAnswer.rx true], env := s.env.afterXfer s.cfg.dummyTx
      cur := { s.cur with sr := s.xferAnswer.rx }, phase := .frame u (.csHigh false) }) ∧
    (s.xferAnswer.ok = false → exec .wireRdsr s = .next { s with
      trace := s.trace ++ [.xfer s.cfg.dummyTx s.xferAnswer.rx false], env := s.env.afterXfer s.cfg.dummyTx
      phase := .frame u (.csHigh true) })

/-- R127, R221, R222: a received data byte of a read command, with READ or READ_A8 as its frame's opcode: READ_BYTE keeps it, and
READ_BLOCK writes it to BUF[i], every other BUF byte unchanged; after a failed transfer BUF is unchanged. -/
def Obligations.ReadDataIsKept : Prop :=
  ∀ (i : Instr) (s : State), i = .wireRead ∨ i = .wireReadA8 → s.frameOp .read = encode i → s.phase = .frame .read .data →
    (s.lat.code = encode .readByte ∨ s.lat.code = encode .readBlock ∧ s.cur.i < s.cfg.bufBytes) →
    ∃ t, exec i s = .next t ∧
      t = { s with trace := t.trace, env := t.env, cur := t.cur, buf := t.buf, phase := t.phase } ∧
      t.trace = s.trace ++ [.xfer s.cfg.dummyTx s.xferAnswer.rx s.xferAnswer.ok] ∧ t.env = s.env.afterXfer s.cfg.dummyTx ∧
      (s.xferAnswer.ok = false → t.cur = s.cur ∧ t.buf = s.buf ∧ t.phase = .frame .read (.csHigh true)) ∧
      (s.xferAnswer.ok = true → s.lat.code = encode .readByte →
        t.cur = { s.cur with d := s.xferAnswer.rx, i := s.cur.i + 1 } ∧ t.buf = s.buf ∧
        t.phase = .frame .read (if s.cur.i + 1 < 1 then .data else .csHigh false)) ∧
      (s.xferAnswer.ok = true → s.lat.code = encode .readBlock →
        t.cur = { s.cur with i := s.cur.i + 1 } ∧ t.bufByte s.cur.i = s.xferAnswer.rx ∧
        (∀ a, a ≠ s.cur.i → t.bufByte a = s.bufByte a) ∧
        t.phase = .frame .read (if s.cur.i + 1 < s.lat.len.toNat then .data else .csHigh false))

/-- R270: a byte of the compare frame: it is compared with the new byte at the same index; at the first mismatch the index is kept
and the frame ends, and the comparison goes no further; BUF is unchanged. -/
def Obligations.CompareEndsAtTheFirstMismatch : Prop :=
  ∀ (i : Instr) (s : State) (new : Byte), i = .wireRead ∨ i = .wireReadA8 → s.frameOp .compare = encode i →
    s.phase = .frame .compare .data →
    (s.lat.code = encode .updateByte ∧ new = s.lat.data ∨
      (s.lat.code = encode .updateBlock ∨ s.lat.code = encode .updatePage) ∧ s.cur.off + s.cur.i < s.cfg.bufBytes ∧
        new = s.bufByte (s.cur.off + s.cur.i)) →
    ∃ t, exec i s = .next t ∧ t = { s with trace := t.trace, env := t.env, cur := t.cur, phase := t.phase } ∧
      t.trace = s.trace ++ [.xfer s.cfg.dummyTx s.xferAnswer.rx s.xferAnswer.ok] ∧ t.env = s.env.afterXfer s.cfg.dummyTx ∧
      (s.xferAnswer.ok = false → t.cur = s.cur ∧ t.phase = .frame .compare (.csHigh true)) ∧
      (s.xferAnswer.ok = true → s.xferAnswer.rx ≠ new →
        t.cur = { s.cur with k := s.cur.i } ∧ t.phase = .frame .compare (.csHigh false)) ∧
      (s.xferAnswer.ok = true → s.xferAnswer.rx = new →
        t.cur = { s.cur with i := s.cur.i + 1 } ∧
        t.phase = .frame .compare (if s.cur.i + 1 < s.cur.segLen then .data else .csHigh false))

/-- R128, R134, R240, R270: a data byte of a WRITE frame is s(k + i): WDATA's byte for the byte commands, BUF for the others; its
answer is discarded and BUF is unchanged. -/
def Obligations.WriteDataIsSent : Prop :=
  ∀ (i : Instr) (s : State) (b : Byte), i = .wireWrite ∨ i = .wireWriteA8 → s.frameOp .write = encode i →
    s.phase = .frame .write .data →
    (s.lat.code ∈ [encode .writeByte, encode .updateByte] ∧ b = s.lat.data ∨
      s.lat.code ∈ [encode .writeBlock, encode .writePage, encode .updateBlock, encode .updatePage] ∧
        s.cur.off + (s.cur.k + s.cur.i) < s.cfg.bufBytes ∧ b = s.bufByte (s.cur.off + (s.cur.k + s.cur.i))) →
    (s.xferAnswer.ok = true → exec i s = .next { s with
      trace := s.trace ++ [.xfer b s.xferAnswer.rx true], env := s.env.afterXfer b, cur := { s.cur with i := s.cur.i + 1 }
      phase := .frame .write (if s.cur.i + 1 < s.cur.segLen - s.cur.k then .data else .csHigh false) }) ∧
    (s.xferAnswer.ok = false → exec i s = .next { s with
      trace := s.trace ++ [.xfer b s.xferAnswer.rx false], env := s.env.afterXfer b, phase := .frame .write (.csHigh true) })

/-- R244, R245, R270, R273: after a WRITE frame, and after a compare frame that found no mismatch, the splitter advances to the next
segment, which starts where this one ended and has min(P, rem) bytes, and waits again, or the loop ends; after a compare frame
that found one at index k the command waits for the WREN and WRITE frames of the rest of the segment, from k on. In every state
that meets the invariant the next segment's PageCheck holds (R246 (e)). -/
def Obligations.SegmentLoopAdvances : Prop :=
  ∀ (i : Instr) (s : State), Inv s →
    ((i = .wireWrite ∨ i = .wireWriteA8) ∧ s.frameOp .write = encode i ∧ s.phase = .frame .write (.txnEnd false) ∨
      (i = .wireRead ∨ i = .wireReadA8) ∧ s.frameOp .compare = encode i ∧ s.phase = .frame .compare (.txnEnd false) ∧
        s.cur.k = s.cur.segLen →
      exec i s = .next { s with
        trace := s.trace ++ [.endTxn]
        cur := { s.cur with
          segAddr := s.cur.segAddr + s.cur.segLen, off := s.cur.off + s.cur.segLen, rem := s.cur.rem - s.cur.segLen
          segLen := min s.cfg.page (s.cur.rem - s.cur.segLen), k := 0, i := 0 }
        phase := if s.cur.rem = s.cur.segLen then .complete
          else .waitT0 (if s.lat.code ∈ [encode .updateByte, encode .updateBlock, encode .updatePage] then .compare else .write) }) ∧
    (i = .wireRead ∨ i = .wireReadA8 → s.frameOp .compare = encode i → s.phase = .frame .compare (.txnEnd false) →
      s.cur.k < s.cur.segLen →
      exec i s = .next { s with trace := s.trace ++ [.endTxn], phase := .waitT0 .write })

/-- R131, 93 U10: WRSR is a defined opcode, no frame of the sequencer has it as its opcode, and the model refuses its frame, which
the spec does not give, by name on every state (log 13). -/
def Obligations.WrsrIsNeverSent : Prop :=
  decodeWire 0x01 = some .wireWrsr ∧ (∀ s : State, exec .wireWrsr s = .refused .wrsrFormatNotSpecified) ∧
  (∀ (s : State) (u : FrameUse), s.frameOp u ≠ 0x01)

/-! ### Frames of the instructions: what they leave unchanged -/

/-- R31, R34, R47, R134: a step of a host command changes neither the configuration, nor BUF, nor the latched operands, nor the
holding registers, nor the host's data; only INIT changes the clock, and the trace only grows. -/
def Obligations.HostCommandsLeaveTheRest : Prop :=
  ∀ (i : Instr) (s t : State), i.space = .host → exec i s = .next t →
    t.cfg = s.cfg ∧ (∀ a, t.bufByte a = s.bufByte a) ∧ t.buf = s.buf ∧ t.lat = s.lat ∧ t.hostData = s.hostData ∧
    t.regs.addr = s.regs.addr ∧ t.regs.len = s.regs.len ∧ t.regs.wdata = s.regs.wdata ∧ t.regs.clkcfg = s.regs.clkcfg ∧
    t.env.sched = s.env.sched ∧ t.env.busFree = s.env.busFree ∧ t.env.epoch = s.env.epoch ∧
    (i ≠ .init → t.clockHz = s.clockHz) ∧ (s.phase ≠ .check → t.fault = s.fault) ∧
    (∃ l, t.trace = s.trace ++ l)

/-- R89, R134, R196 (polls do not write RDATA): a step of a wire opcode changes no register, no STATUS field but through the phase,
nothing of the configuration, the latched operands, the clock or the fault record, and no BUF byte but, for a successful
transfer of a READ_BLOCK's data phase, the one at the index i it reads into. -/
def Obligations.WireOpcodesLeaveTheRest : Prop :=
  ∀ (i : Instr) (s t : State), i.space = .wire → exec i s = .next t →
    t.cfg = s.cfg ∧ t.regs = s.regs ∧ t.fault = s.fault ∧ t.initDone = s.initDone ∧ t.clockHz = s.clockHz ∧ t.lat = s.lat ∧
    t.hostData = s.hostData ∧ t.phase ≠ .idle ∧ t.env.sched = s.env.sched ∧ t.env.busFree = s.env.busFree ∧
    t.env.epoch = s.env.epoch ∧
    (∀ a, (if s.phase = .frame .read .data ∧ s.xferAnswer.ok = true ∧ isByteCommand s.command = false
           then some s.cur.i else none) = some a → ∀ b, b ≠ a → t.bufByte b = s.bufByte b) ∧
    (¬(s.phase = .frame .read .data ∧ s.xferAnswer.ok = true ∧ isByteCommand s.command = false) →
      ∀ b, t.bufByte b = s.bufByte b)

/-- R38: READ_BYTE, READ_STATUS and IS_READY write their byte to RDATA when they complete; no other instruction, and no failed
command, changes RDATA. -/
def Obligations.RdataWriters : Prop :=
  (∀ s : State, s.phase = .complete →
    (∃ t, exec .readByte s = .next t ∧ t.regs.rdata = s.cur.d) ∧ (∃ t, exec .readStatus s = .next t ∧ t.regs.rdata = s.cur.sr) ∧
    (∃ t, exec .isReady s = .next t ∧ t.regs.rdata = s.cur.sr)) ∧
  (∀ (i : Instr) (s t : State), exec i s = .next t → t.regs.rdata ≠ s.regs.rdata →
    (i = .readByte ∨ i = .readStatus ∨ i = .isReady) ∧ s.phase = .complete ∧ t.regs.err = .none)

/-- R47: INIT sets `initDone` and `clockHz`, DEINIT clears `initDone`, STATUS.INIT reads it, and no step but these commands' and a
reset writes either. -/
def Obligations.InitDoneAndClockWriters : Prop :=
  (∀ s t : State, exec .init s = .next t →
    (s.phase = .pin → t.initDone = true) ∧
    (s.phase = .check → t.clockHz = if s.lat.clk = 0 then s.cfg.defaultClockHz else s.lat.clk)) ∧
  (∀ s t : State, exec .deinit s = .next t → s.phase = .pin → t.initDone = false) ∧
  (∀ s : State, s.statusWord.getLsbD 1 = s.initDone) ∧
  (∀ s t : State, step s = .next t → (∀ r, s.env.sched ≠ .reset :: r) → t.initDone ≠ s.initDone ∨ t.clockHz ≠ s.clockHz →
    t.lat.code = encode .init ∨ t.lat.code = encode .deinit ∧ t.clockHz = s.clockHz)

/-- R37, R38, R301: while a command runs RESULT and ERR keep the previous command's values, and a command that completes with an
error has RESULT = 0. -/
def Obligations.ResultIsHeldWhileBusy : Prop :=
  ∀ s t : State, step s = .next t → (∀ r, s.env.sched ≠ .reset :: r) →
    (t.phase ≠ .idle → t.regs.result = s.regs.result ∧ t.regs.err = s.regs.err ∧ t.regs.rdata = s.regs.rdata) ∧
    (s.phase ≠ .idle → t.phase = .idle → t.regs.err ≠ .none → t.regs.result = 0)

/-- R36, R55: the trace only grows, by at most one event a step, but for a reset. -/
def Obligations.OneEventPerStep : Prop :=
  ∀ s t : State, step s = .next t → (∀ r, s.env.sched ≠ .reset :: r) → t.trace = s.trace ∨ ∃ e, t.trace = s.trace ++ [e]

/-- R8, R340: no step changes the configuration, a reset included. -/
def Obligations.ConfigurationIsFixed : Prop :=
  ∀ s t : State, step s = .next t → t.cfg = s.cfg

/-! ### Invariants -/

/-- R9, R51, R56: the invariant holds after reset, on every valid configuration and with every environment whose responder's array,
if one is attached, and whose array before a command are in their canonical form. -/
def Obligations.InvariantHoldsAtReset : Prop :=
  Inv State.reset ∧
  ∀ (c : Config) (e : Env), c.valid = true → (∀ r, e.chip = some r → Memory.wf r.array = true) → Memory.wf e.before = true →
    Inv (State.afterReset c e)

/-- R36, R51, R81, R199, R241, R246: every step keeps the invariant: the memories' canonical form, the chip-select line in its place
at every program point (in particular high while idle and initialised, R51), a legal command at one of its own program points,
and its range within the array, BUF and one page. -/
def Obligations.InvariantIsKept : Prop :=
  ∀ s t : State, Inv s → step s = .next t → Inv t

/-- R81, R246 (e), R348: a machine that meets the invariant never stops: every step answers a next state, with no fault and no
refusal, whatever the host, the transport, the chip and the time source do. -/
def Obligations.InvariantStatesNeverStop : Prop :=
  ∀ s : State, Inv s → ∃ t, step s = .next t

/-- R126, R132, R240, R246 (f): every step keeps the wire protocol: frames are CS(0) BEGIN … CS(1) END with the fixed bus parameters
and never overlap, their first byte is one of the seven the sequencer sends, no byte follows a failed transfer, and a WRITE
frame comes directly after a complete WREN frame, with no event between them. -/
def Obligations.WireProtocolIsKept : Prop :=
  State.reset.scanOk ∧ ∀ s t : State, s.scanOk → step s = .next t → t.scanOk

/-- R46, R81: a write of a memory is read back and changes no other byte. That a memory is kept in a canonical form, strictly rising
addresses, by every write, and that two memories in that form that read alike are equal, is about the model's own representation
(log 4), which no rule gives. -/
def Obligations.MemoryIsCanonical : Prop :=
  (∀ (m : Memory) (a : Nat) (v : Byte), Memory.wf m = true → Memory.wf (m.set a v) = true) ∧
  (∀ (m : Memory) (a b : Nat) (v : Byte), (m.set a v).get? b = if b = a then some v else m.get? b) ∧
  (∀ m m' : Memory, Memory.wf m = true → Memory.wf m' = true → (∀ a, m.get? a = m'.get? a) → m = m')

/-! ### The splitter (43_write.md R244, R246) -/

/-- R246 (a) to (e): the segments of a range are contiguous from its start, with BUF offsets from 0; their lengths sum to n and lie
between 1 and P; the first has min(P − (a mod P), n) bytes; there are ceil(((a mod P) + n) / P) of them; and each satisfies
PageCheck. -/
def Obligations.SplitterSegments : Prop :=
  ∀ (c : Config) (a n : Nat), c.valid = true → 1 ≤ n → a + n ≤ c.cap →
    (∀ g, (segments c a n)[0]? = some g → g.addr = a ∧ g.off = 0 ∧ g.len = min (c.page - a % c.page) n) ∧
    (∀ (k : Nat) (g h : Segment), (segments c a n)[k]? = some g → (segments c a n)[k + 1]? = some h →
      h.addr = g.addr + g.len ∧ h.off = g.off + g.len) ∧
    ((segments c a n).map Segment.len).sum = n ∧
    (segments c a n).length = (a % c.page + n + c.page - 1) / c.page ∧
    (∀ g ∈ segments c a n, 1 ≤ g.len ∧ g.len ≤ c.page ∧ pageCheck c g.addr g.len = true)

/-! ### Whole commands -/

/-- R220, R221, R223, R353: from a CMD write of READ_BLOCK for n ≥ 1 bytes within the array and BUF, on an initialised block whose
first poll is ready and whose transfers succeed: exactly one RDSR frame and one READ frame of 1 + NADDR + n bytes go out, BUF[0 .. n−1]
hold the received bytes and the rest of BUF is unchanged, and RESULT = n. -/
def Obligations.ReadBlockRun : Prop :=
  ∀ (s : State) (a n : Nat) (t0 : Word) (ts : List Word) (p sr : Byte) (h d : List Byte) (rest : List Answer),
    s.cfg.valid = true → s.phase = .idle → s.initDone = true → s.env.busFree = true → s.env.chip = none →
    s.env.sched = [.host (.write s.cfg.hostBase (lanesOf 0x21))] →
    a = s.regs.addr.toNat → n = s.regs.len.toNat → 1 ≤ n → a + n ≤ s.cfg.cap → n ≤ s.cfg.bufBytes →
    s.env.times = t0 :: ts → s.env.answers = goodAnswers ([p, sr] ++ (h ++ d)) ++ rest →
    sr.getLsbD 0 = false → h.length = 1 + s.cfg.nAddr → d.length = n →
    ∃ t, runSteps (13 + s.cfg.nAddr + n) s = .next t ∧
      t.trace = s.trace ++ (.time t0 :: (frameEvents s.clockHz (frameBytes s.cfg .rdsr) [p, sr] ++
        frameEvents s.clockHz (frameBytes s.cfg (.read a n)) (h ++ d))) ∧
      (∀ j b, d[j]? = some b → t.bufByte j = b) ∧ (∀ j, n ≤ j → t.bufByte j = s.bufByte j) ∧
      t.regs = { s.regs with result := s.regs.len, err := .none } ∧ t.phase = .idle ∧ t.cs = .high ∧ t.fault = s.fault ∧
      t.env.answers = rest ∧ t.env.times = ts

/-- R240, R244, R245, R246 (f), R350: from a CMD write of WRITE_BLOCK for n ≥ 1 bytes within the array and BUF, on an initialised block
whose every first poll is ready and whose transfers succeed: for each segment of the split, in order, one RDSR frame, one WREN
frame and one WRITE frame of that segment's BUF bytes go out, and nothing else; BUF is unchanged and RESULT = n. -/
def Obligations.WriteBlockRun : Prop :=
  ∀ (s : State) (a n : Nat) (xs : List SegmentInput) (ts : List Word) (rest : List Answer),
    s.cfg.valid = true → s.phase = .idle → s.initDone = true → s.env.busFree = true → s.env.chip = none →
    s.env.sched = [.host (.write s.cfg.hostBase (lanesOf 0x31))] →
    a = s.regs.addr.toNat → n = s.regs.len.toNat → 1 ≤ n → a + n ≤ s.cfg.cap → n ≤ s.cfg.bufBytes →
    List.Forall₂ (fun g x => x.writeRx.length = 1 + s.cfg.nAddr + g.len ∧ x.status.getLsbD 0 = false) (segments s.cfg a n) xs →
    s.env.times = xs.map SegmentInput.time ++ ts →
    s.env.answers = goodAnswers (xs.flatMap SegmentInput.rx) ++ rest →
    ∃ k t, runSteps k s = .next t ∧
      t.trace = s.trace ++ (List.zipWith s.segmentEvents (segments s.cfg a n) xs).flatten ∧
      t.buf = s.buf ∧ t.regs = { s.regs with result := s.regs.len, err := .none } ∧ t.phase = .idle ∧ t.cs = .high ∧
      t.fault = s.fault ∧ t.env.answers = rest ∧ t.env.times = ts

/-- R270 to R273, R274 (a), (d): an update command whose new bytes all equal the bytes read, on an initialised block whose every poll is
ready and whose transfers succeed: for each segment of the split, in order (one segment for UPDATE_BYTE and UPDATE_PAGE), one RDSR
frame and one compare frame of all its bytes go out, and nothing else, so no WREN and no WRITE frame; BUF is unchanged and RESULT is
the full length. -/
def Obligations.IdenticalUpdateSkipsTheWrite : Prop :=
  ∀ (i : Instr) (s : State) (a n : Nat) (xs : List CompareInput) (ts : List Word) (rest : List Answer),
    i ∈ [Instr.updateByte, .updateBlock, .updatePage] → s.cfg.valid = true → s.cfg.hasUpdate = true → s.phase = .idle →
    s.initDone = true → s.env.busFree = true → s.env.chip = none →
    s.env.sched = [.host (.write s.cfg.hostBase (lanesOf ((encode i).setWidth 32)))] →
    a = s.regs.addr.toNat → n = (if i = .updateByte then 1 else s.regs.len.toNat) → 1 ≤ n → a + n ≤ s.cfg.cap →
    (i = .updatePage → a % s.cfg.page + n ≤ s.cfg.page) → (i ≠ .updateByte → n ≤ s.cfg.bufBytes) →
    (∀ x ∈ xs, x.head.length = 1 + s.cfg.nAddr ∧ x.status.getLsbD 0 = false) →
    xs.length = (segments s.cfg a n).length → s.env.times = xs.map CompareInput.time ++ ts →
    s.env.answers = goodAnswers (List.zipWith (s.compareRx i) (segments s.cfg a n) xs).flatten ++ rest →
    ∃ k t, runSteps k s = .next t ∧
      t.trace = s.trace ++ (List.zipWith (s.compareEvents i) (segments s.cfg a n) xs).flatten ∧
      t.buf = s.buf ∧ t.regs = { s.regs with result := BitVec.ofNat 32 n, err := .none } ∧ t.phase = .idle ∧ t.cs = .high ∧
      t.fault = s.fault ∧ t.env.answers = rest ∧ t.env.times = ts

/-! ### Reference responder (20_memory.md R100 to R110) -/

/-- R103, R104: at the CS(1) of a WREN or WRDI frame the attached responder sets or clears WEL, when WIP = 0, and changes nothing
else. -/
def Obligations.WrenAndWrdiSetTheLatch : Prop :=
  ∀ (s : State) (r : Responder) (u : FrameUse) (rest : List Byte), s.env.chip = some r →
    (u = .wrenCmd ∨ u = .wrenSeq → s.phase = .frame u (.csHigh false) → r.heard = some (0x06 :: rest) →
      ∃ t, exec .wireWren s = .next t ∧
        t.env.chip = some { r with heard := none, wel := if r.wip then r.wel else true }) ∧
    (s.phase = .frame .wrdi (.csHigh false) → r.heard = some (0x04 :: rest) →
      ∃ t, exec .wireWrdi s = .next t ∧
        t.env.chip = some { r with heard := none, wel := if r.wip then r.wel else false })

/-- R88, R105, R106, R306: the reference responder that accepts a whole WRITE frame and whose write cycle takes no poll holds the
frame's bytes at its addresses and its old bytes elsewhere, with WEL and WIP clear; and a READ frame's j-th data byte is the array
byte at a + j. So a byte written is the byte read back. A WRITE frame cut short, after any of its bytes, leaves each byte of its
range the old or the new one and every other byte as it was, and nothing at all changes in the array of a responder that does not
accept it. That the byte of the failed transfer is heard or not, as a free draw has it, is the model's (log 24). -/
def Obligations.ResponderReadsBackWhatWasWritten : Prop :=
  ∀ (c : Config) (r : Responder) (a : Nat) (d : List Byte), c.valid = true → (Frame.write a d).wellFormed c = true →
    (r.wel = true → r.wip = false → r.busyPolls = some 0 →
      let w := r.frame c (frameBytes c (.write a d))
      w.wel = false ∧ w.wip = false ∧ w.heard = none ∧
      (∀ j b, d[j]? = some b → w.byteAt (a + j) = b) ∧
      (∀ x, x < a ∨ a + d.length ≤ x → w.byteAt x = r.byteAt x) ∧
      (∀ j b, d[j]? = some b →
        ((frameBytes c (.read a j)).foldl (fun q tx => q.hear tx) w.onCsLow).answer c = b)) ∧
    ∀ (m n : Nat) (q : Responder), q = (((frameBytes c (.write a d)).take m).foldl (fun q tx => q.hear tx) r.onCsLow) →
      let w := q.onCutShort c n (bytesFrom a d)
      (∀ x, x < a ∨ a + d.length ≤ x → w.byteAt x = r.byteAt x) ∧
      (∀ j b, d[j]? = some b → w.byteAt (a + j) = r.byteAt (a + j) ∨ w.byteAt (a + j) = b) ∧
      (r.wel = false ∨ r.wip = true → w.array = r.array ∧ w.pend = r.pend ∧ w.wel = r.wel ∧ w.wip = r.wip) ∧
      w.heard = none
end

