-- ==== Sys2Proof/Laws/State.lean ====
section
/-! SUPPORT. One lemma per field of State per update, true by rfl, and the same for the views of a state that an update leaves
alone, so that no proof unfolds a record update. -/

namespace Sys2Proof.Machine

variable (s : State)

/-! ### goto -/

@[simp] theorem State.goto_cfg (p : Phase) : (s.goto p).cfg = s.cfg := rfl
@[simp] theorem State.goto_regs (p : Phase) : (s.goto p).regs = s.regs := rfl
@[simp] theorem State.goto_buf (p : Phase) : (s.goto p).buf = s.buf := rfl
@[simp] theorem State.goto_fault (p : Phase) : (s.goto p).fault = s.fault := rfl
@[simp] theorem State.goto_initDone (p : Phase) : (s.goto p).initDone = s.initDone := rfl
@[simp] theorem State.goto_clockHz (p : Phase) : (s.goto p).clockHz = s.clockHz := rfl
@[simp] theorem State.goto_cs (p : Phase) : (s.goto p).cs = s.cs := rfl
@[simp] theorem State.goto_phase (p : Phase) : (s.goto p).phase = p := rfl
@[simp] theorem State.goto_lat (p : Phase) : (s.goto p).lat = s.lat := rfl
@[simp] theorem State.goto_cur (p : Phase) : (s.goto p).cur = s.cur := rfl
@[simp] theorem State.goto_trace (p : Phase) : (s.goto p).trace = s.trace := rfl
@[simp] theorem State.goto_hostData (p : Phase) : (s.goto p).hostData = s.hostData := rfl
@[simp] theorem State.goto_env (p : Phase) : (s.goto p).env = s.env := rfl
@[simp] theorem State.goto_command (p : Phase) : (s.goto p).command = s.command := rfl
@[simp] theorem State.goto_cAddr (p : Phase) : (s.goto p).cAddr = s.cAddr := rfl
@[simp] theorem State.goto_cLen (p : Phase) : (s.goto p).cLen = s.cLen := rfl
@[simp] theorem State.goto_readLen (p : Phase) : (s.goto p).readLen = s.readLen := rfl
@[simp] theorem State.goto_segWait (p : Phase) : (s.goto p).segWait = s.segWait := rfl
@[simp] theorem State.goto_frameTarget (p : Phase) (u : FrameUse) : (s.goto p).frameTarget u = s.frameTarget u := by cases u <;> rfl
@[simp] theorem State.goto_frameOp (p : Phase) (u : FrameUse) : (s.goto p).frameOp u = s.frameOp u := by cases u <;> rfl
@[simp] theorem State.goto_frameAddr (p : Phase) (u : FrameUse) : (s.goto p).frameAddr u = s.frameAddr u := by cases u <;> rfl
@[simp] theorem State.goto_frameLen (p : Phase) (u : FrameUse) : (s.goto p).frameLen u = s.frameLen u := by cases u <;> rfl

/-! ### emit -/

@[simp] theorem State.emit_cfg (e : WireEvent) : (s.emit e).cfg = s.cfg := rfl
@[simp] theorem State.emit_regs (e : WireEvent) : (s.emit e).regs = s.regs := rfl
@[simp] theorem State.emit_buf (e : WireEvent) : (s.emit e).buf = s.buf := rfl
@[simp] theorem State.emit_fault (e : WireEvent) : (s.emit e).fault = s.fault := rfl
@[simp] theorem State.emit_initDone (e : WireEvent) : (s.emit e).initDone = s.initDone := rfl
@[simp] theorem State.emit_clockHz (e : WireEvent) : (s.emit e).clockHz = s.clockHz := rfl
@[simp] theorem State.emit_cs (e : WireEvent) : (s.emit e).cs = s.cs := rfl
@[simp] theorem State.emit_phase (e : WireEvent) : (s.emit e).phase = s.phase := rfl
@[simp] theorem State.emit_lat (e : WireEvent) : (s.emit e).lat = s.lat := rfl
@[simp] theorem State.emit_cur (e : WireEvent) : (s.emit e).cur = s.cur := rfl
@[simp] theorem State.emit_trace (e : WireEvent) : (s.emit e).trace = s.trace ++ [e] := rfl
@[simp] theorem State.emit_hostData (e : WireEvent) : (s.emit e).hostData = s.hostData := rfl
@[simp] theorem State.emit_env (e : WireEvent) : (s.emit e).env = s.env := rfl
@[simp] theorem State.emit_command (e : WireEvent) : (s.emit e).command = s.command := rfl
@[simp] theorem State.emit_cAddr (e : WireEvent) : (s.emit e).cAddr = s.cAddr := rfl
@[simp] theorem State.emit_cLen (e : WireEvent) : (s.emit e).cLen = s.cLen := rfl
@[simp] theorem State.emit_readLen (e : WireEvent) : (s.emit e).readLen = s.readLen := rfl
@[simp] theorem State.emit_segWait (e : WireEvent) : (s.emit e).segWait = s.segWait := rfl
@[simp] theorem State.emit_frameTarget (e : WireEvent) (u : FrameUse) : (s.emit e).frameTarget u = s.frameTarget u := by cases u <;> rfl
@[simp] theorem State.emit_frameOp (e : WireEvent) (u : FrameUse) : (s.emit e).frameOp u = s.frameOp u := by cases u <;> rfl
@[simp] theorem State.emit_frameAddr (e : WireEvent) (u : FrameUse) : (s.emit e).frameAddr u = s.frameAddr u := by cases u <;> rfl
@[simp] theorem State.emit_frameLen (e : WireEvent) (u : FrameUse) : (s.emit e).frameLen u = s.frameLen u := by cases u <;> rfl

/-! ### setEnv -/

@[simp] theorem State.setEnv_cfg (e : Env) : (s.setEnv e).cfg = s.cfg := rfl
@[simp] theorem State.setEnv_regs (e : Env) : (s.setEnv e).regs = s.regs := rfl
@[simp] theorem State.setEnv_buf (e : Env) : (s.setEnv e).buf = s.buf := rfl
@[simp] theorem State.setEnv_fault (e : Env) : (s.setEnv e).fault = s.fault := rfl
@[simp] theorem State.setEnv_initDone (e : Env) : (s.setEnv e).initDone = s.initDone := rfl
@[simp] theorem State.setEnv_clockHz (e : Env) : (s.setEnv e).clockHz = s.clockHz := rfl
@[simp] theorem State.setEnv_cs (e : Env) : (s.setEnv e).cs = s.cs := rfl
@[simp] theorem State.setEnv_phase (e : Env) : (s.setEnv e).phase = s.phase := rfl
@[simp] theorem State.setEnv_lat (e : Env) : (s.setEnv e).lat = s.lat := rfl
@[simp] theorem State.setEnv_cur (e : Env) : (s.setEnv e).cur = s.cur := rfl
@[simp] theorem State.setEnv_trace (e : Env) : (s.setEnv e).trace = s.trace := rfl
@[simp] theorem State.setEnv_hostData (e : Env) : (s.setEnv e).hostData = s.hostData := rfl
@[simp] theorem State.setEnv_env (e : Env) : (s.setEnv e).env = e := rfl
@[simp] theorem State.setEnv_command (e : Env) : (s.setEnv e).command = s.command := rfl
@[simp] theorem State.setEnv_cAddr (e : Env) : (s.setEnv e).cAddr = s.cAddr := rfl
@[simp] theorem State.setEnv_cLen (e : Env) : (s.setEnv e).cLen = s.cLen := rfl
@[simp] theorem State.setEnv_readLen (e : Env) : (s.setEnv e).readLen = s.readLen := rfl
@[simp] theorem State.setEnv_segWait (e : Env) : (s.setEnv e).segWait = s.segWait := rfl
@[simp] theorem State.setEnv_frameTarget (e : Env) (u : FrameUse) : (s.setEnv e).frameTarget u = s.frameTarget u := by cases u <;> rfl
@[simp] theorem State.setEnv_frameOp (e : Env) (u : FrameUse) : (s.setEnv e).frameOp u = s.frameOp u := by cases u <;> rfl
@[simp] theorem State.setEnv_frameAddr (e : Env) (u : FrameUse) : (s.setEnv e).frameAddr u = s.frameAddr u := by cases u <;> rfl
@[simp] theorem State.setEnv_frameLen (e : Env) (u : FrameUse) : (s.setEnv e).frameLen u = s.frameLen u := by cases u <;> rfl

/-! ### setCur -/

@[simp] theorem State.setCur_cfg (c : Cursor) : (s.setCur c).cfg = s.cfg := rfl
@[simp] theorem State.setCur_regs (c : Cursor) : (s.setCur c).regs = s.regs := rfl
@[simp] theorem State.setCur_buf (c : Cursor) : (s.setCur c).buf = s.buf := rfl
@[simp] theorem State.setCur_fault (c : Cursor) : (s.setCur c).fault = s.fault := rfl
@[simp] theorem State.setCur_initDone (c : Cursor) : (s.setCur c).initDone = s.initDone := rfl
@[simp] theorem State.setCur_clockHz (c : Cursor) : (s.setCur c).clockHz = s.clockHz := rfl
@[simp] theorem State.setCur_cs (c : Cursor) : (s.setCur c).cs = s.cs := rfl
@[simp] theorem State.setCur_phase (c : Cursor) : (s.setCur c).phase = s.phase := rfl
@[simp] theorem State.setCur_lat (c : Cursor) : (s.setCur c).lat = s.lat := rfl
@[simp] theorem State.setCur_cur (c : Cursor) : (s.setCur c).cur = c := rfl
@[simp] theorem State.setCur_trace (c : Cursor) : (s.setCur c).trace = s.trace := rfl
@[simp] theorem State.setCur_hostData (c : Cursor) : (s.setCur c).hostData = s.hostData := rfl
@[simp] theorem State.setCur_env (c : Cursor) : (s.setCur c).env = s.env := rfl
@[simp] theorem State.setCur_command (c : Cursor) : (s.setCur c).command = s.command := rfl
@[simp] theorem State.setCur_cAddr (c : Cursor) : (s.setCur c).cAddr = s.cAddr := rfl
@[simp] theorem State.setCur_cLen (c : Cursor) : (s.setCur c).cLen = s.cLen := rfl
@[simp] theorem State.setCur_readLen (c : Cursor) : (s.setCur c).readLen = s.readLen := rfl
@[simp] theorem State.setCur_segWait (c : Cursor) : (s.setCur c).segWait = s.segWait := rfl

/-! ### bufWrite -/

@[simp] theorem State.bufWrite_cfg (i : Nat) (v : Byte) : (s.bufWrite i v).cfg = s.cfg := rfl
@[simp] theorem State.bufWrite_regs (i : Nat) (v : Byte) : (s.bufWrite i v).regs = s.regs := rfl
@[simp] theorem State.bufWrite_buf (i : Nat) (v : Byte) : (s.bufWrite i v).buf = s.buf.set i v := rfl
@[simp] theorem State.bufWrite_fault (i : Nat) (v : Byte) : (s.bufWrite i v).fault = s.fault := rfl
@[simp] theorem State.bufWrite_initDone (i : Nat) (v : Byte) : (s.bufWrite i v).initDone = s.initDone := rfl
@[simp] theorem State.bufWrite_clockHz (i : Nat) (v : Byte) : (s.bufWrite i v).clockHz = s.clockHz := rfl
@[simp] theorem State.bufWrite_cs (i : Nat) (v : Byte) : (s.bufWrite i v).cs = s.cs := rfl
@[simp] theorem State.bufWrite_phase (i : Nat) (v : Byte) : (s.bufWrite i v).phase = s.phase := rfl
@[simp] theorem State.bufWrite_lat (i : Nat) (v : Byte) : (s.bufWrite i v).lat = s.lat := rfl
@[simp] theorem State.bufWrite_cur (i : Nat) (v : Byte) : (s.bufWrite i v).cur = s.cur := rfl
@[simp] theorem State.bufWrite_trace (i : Nat) (v : Byte) : (s.bufWrite i v).trace = s.trace := rfl
@[simp] theorem State.bufWrite_hostData (i : Nat) (v : Byte) : (s.bufWrite i v).hostData = s.hostData := rfl
@[simp] theorem State.bufWrite_env (i : Nat) (v : Byte) : (s.bufWrite i v).env = s.env := rfl
@[simp] theorem State.bufWrite_command (i : Nat) (v : Byte) : (s.bufWrite i v).command = s.command := rfl
@[simp] theorem State.bufWrite_cAddr (i : Nat) (v : Byte) : (s.bufWrite i v).cAddr = s.cAddr := rfl
@[simp] theorem State.bufWrite_cLen (i : Nat) (v : Byte) : (s.bufWrite i v).cLen = s.cLen := rfl
@[simp] theorem State.bufWrite_readLen (i : Nat) (v : Byte) : (s.bufWrite i v).readLen = s.readLen := rfl
@[simp] theorem State.bufWrite_segWait (i : Nat) (v : Byte) : (s.bufWrite i v).segWait = s.segWait := rfl
@[simp] theorem State.bufWrite_frameTarget (i : Nat) (v : Byte) (u : FrameUse) : (s.bufWrite i v).frameTarget u = s.frameTarget u := by cases u <;> rfl
@[simp] theorem State.bufWrite_frameOp (i : Nat) (v : Byte) (u : FrameUse) : (s.bufWrite i v).frameOp u = s.frameOp u := by cases u <;> rfl
@[simp] theorem State.bufWrite_frameAddr (i : Nat) (v : Byte) (u : FrameUse) : (s.bufWrite i v).frameAddr u = s.frameAddr u := by cases u <;> rfl
@[simp] theorem State.bufWrite_frameLen (i : Nat) (v : Byte) (u : FrameUse) : (s.bufWrite i v).frameLen u = s.frameLen u := by cases u <;> rfl

/-! ### setRdata -/

@[simp] theorem State.setRdata_cfg (v : Byte) : (s.setRdata v).cfg = s.cfg := rfl
@[simp] theorem State.setRdata_regs (v : Byte) : (s.setRdata v).regs = { s.regs with rdata := v } := rfl
@[simp] theorem State.setRdata_buf (v : Byte) : (s.setRdata v).buf = s.buf := rfl
@[simp] theorem State.setRdata_fault (v : Byte) : (s.setRdata v).fault = s.fault := rfl
@[simp] theorem State.setRdata_initDone (v : Byte) : (s.setRdata v).initDone = s.initDone := rfl
@[simp] theorem State.setRdata_clockHz (v : Byte) : (s.setRdata v).clockHz = s.clockHz := rfl
@[simp] theorem State.setRdata_cs (v : Byte) : (s.setRdata v).cs = s.cs := rfl
@[simp] theorem State.setRdata_phase (v : Byte) : (s.setRdata v).phase = s.phase := rfl
@[simp] theorem State.setRdata_lat (v : Byte) : (s.setRdata v).lat = s.lat := rfl
@[simp] theorem State.setRdata_cur (v : Byte) : (s.setRdata v).cur = s.cur := rfl
@[simp] theorem State.setRdata_trace (v : Byte) : (s.setRdata v).trace = s.trace := rfl
@[simp] theorem State.setRdata_hostData (v : Byte) : (s.setRdata v).hostData = s.hostData := rfl
@[simp] theorem State.setRdata_env (v : Byte) : (s.setRdata v).env = s.env := rfl
@[simp] theorem State.setRdata_command (v : Byte) : (s.setRdata v).command = s.command := rfl
@[simp] theorem State.setRdata_cAddr (v : Byte) : (s.setRdata v).cAddr = s.cAddr := rfl
@[simp] theorem State.setRdata_cLen (v : Byte) : (s.setRdata v).cLen = s.cLen := rfl
@[simp] theorem State.setRdata_readLen (v : Byte) : (s.setRdata v).readLen = s.readLen := rfl
@[simp] theorem State.setRdata_segWait (v : Byte) : (s.setRdata v).segWait = s.segWait := rfl
@[simp] theorem State.setRdata_frameTarget (v : Byte) (u : FrameUse) : (s.setRdata v).frameTarget u = s.frameTarget u := by cases u <;> rfl
@[simp] theorem State.setRdata_frameOp (v : Byte) (u : FrameUse) : (s.setRdata v).frameOp u = s.frameOp u := by cases u <;> rfl
@[simp] theorem State.setRdata_frameAddr (v : Byte) (u : FrameUse) : (s.setRdata v).frameAddr u = s.frameAddr u := by cases u <;> rfl
@[simp] theorem State.setRdata_frameLen (v : Byte) (u : FrameUse) : (s.setRdata v).frameLen u = s.frameLen u := by cases u <;> rfl

/-! ### csLow -/

@[simp] theorem State.csLow_cfg : (s.csLow).cfg = s.cfg := rfl
@[simp] theorem State.csLow_regs : (s.csLow).regs = s.regs := rfl
@[simp] theorem State.csLow_buf : (s.csLow).buf = s.buf := rfl
@[simp] theorem State.csLow_fault : (s.csLow).fault = s.fault := rfl
@[simp] theorem State.csLow_initDone : (s.csLow).initDone = s.initDone := rfl
@[simp] theorem State.csLow_clockHz : (s.csLow).clockHz = s.clockHz := rfl
@[simp] theorem State.csLow_cs : (s.csLow).cs = .low := rfl
@[simp] theorem State.csLow_phase : (s.csLow).phase = s.phase := rfl
@[simp] theorem State.csLow_lat : (s.csLow).lat = s.lat := rfl
@[simp] theorem State.csLow_cur : (s.csLow).cur = s.cur := rfl
@[simp] theorem State.csLow_trace : (s.csLow).trace = s.trace ++ [.cs false] := rfl
@[simp] theorem State.csLow_hostData : (s.csLow).hostData = s.hostData := rfl
@[simp] theorem State.csLow_env : (s.csLow).env = { s.env with chip := s.env.chip.map Responder.onCsLow } := rfl
@[simp] theorem State.csLow_command : (s.csLow).command = s.command := rfl
@[simp] theorem State.csLow_cAddr : (s.csLow).cAddr = s.cAddr := rfl
@[simp] theorem State.csLow_cLen : (s.csLow).cLen = s.cLen := rfl
@[simp] theorem State.csLow_readLen : (s.csLow).readLen = s.readLen := rfl
@[simp] theorem State.csLow_segWait : (s.csLow).segWait = s.segWait := rfl
@[simp] theorem State.csLow_frameTarget (u : FrameUse) : (s.csLow).frameTarget u = s.frameTarget u := by cases u <;> rfl
@[simp] theorem State.csLow_frameOp (u : FrameUse) : (s.csLow).frameOp u = s.frameOp u := by cases u <;> rfl
@[simp] theorem State.csLow_frameAddr (u : FrameUse) : (s.csLow).frameAddr u = s.frameAddr u := by cases u <;> rfl
@[simp] theorem State.csLow_frameLen (u : FrameUse) : (s.csLow).frameLen u = s.frameLen u := by cases u <;> rfl

/-! ### csHigh -/

@[simp] theorem State.csHigh_cfg : (s.csHigh).cfg = s.cfg := rfl
@[simp] theorem State.csHigh_regs : (s.csHigh).regs = s.regs := rfl
@[simp] theorem State.csHigh_buf : (s.csHigh).buf = s.buf := rfl
@[simp] theorem State.csHigh_fault : (s.csHigh).fault = s.fault := rfl
@[simp] theorem State.csHigh_initDone : (s.csHigh).initDone = s.initDone := rfl
@[simp] theorem State.csHigh_clockHz : (s.csHigh).clockHz = s.clockHz := rfl
@[simp] theorem State.csHigh_cs : (s.csHigh).cs = .high := rfl
@[simp] theorem State.csHigh_phase : (s.csHigh).phase = s.phase := rfl
@[simp] theorem State.csHigh_lat : (s.csHigh).lat = s.lat := rfl
@[simp] theorem State.csHigh_cur : (s.csHigh).cur = s.cur := rfl
@[simp] theorem State.csHigh_trace : (s.csHigh).trace = s.trace ++ [.cs true] := rfl
@[simp] theorem State.csHigh_hostData : (s.csHigh).hostData = s.hostData := rfl
@[simp] theorem State.csHigh_env : (s.csHigh).env = { s.env with chip := s.env.chip.map (Responder.onCsHigh s.cfg) } := rfl
@[simp] theorem State.csHigh_command : (s.csHigh).command = s.command := rfl
@[simp] theorem State.csHigh_cAddr : (s.csHigh).cAddr = s.cAddr := rfl
@[simp] theorem State.csHigh_cLen : (s.csHigh).cLen = s.cLen := rfl
@[simp] theorem State.csHigh_readLen : (s.csHigh).readLen = s.readLen := rfl
@[simp] theorem State.csHigh_segWait : (s.csHigh).segWait = s.segWait := rfl
@[simp] theorem State.csHigh_frameTarget (u : FrameUse) : (s.csHigh).frameTarget u = s.frameTarget u := by cases u <;> rfl
@[simp] theorem State.csHigh_frameOp (u : FrameUse) : (s.csHigh).frameOp u = s.frameOp u := by cases u <;> rfl
@[simp] theorem State.csHigh_frameAddr (u : FrameUse) : (s.csHigh).frameAddr u = s.frameAddr u := by cases u <;> rfl
@[simp] theorem State.csHigh_frameLen (u : FrameUse) : (s.csHigh).frameLen u = s.frameLen u := by cases u <;> rfl

/-! ### csCut -/

@[simp] theorem State.csCut_cfg (u : FrameUse) : (s.csCut u).cfg = s.cfg := rfl
@[simp] theorem State.csCut_regs (u : FrameUse) : (s.csCut u).regs = s.regs := rfl
@[simp] theorem State.csCut_buf (u : FrameUse) : (s.csCut u).buf = s.buf := rfl
@[simp] theorem State.csCut_fault (u : FrameUse) : (s.csCut u).fault = s.fault := rfl
@[simp] theorem State.csCut_initDone (u : FrameUse) : (s.csCut u).initDone = s.initDone := rfl
@[simp] theorem State.csCut_clockHz (u : FrameUse) : (s.csCut u).clockHz = s.clockHz := rfl
@[simp] theorem State.csCut_cs (u : FrameUse) : (s.csCut u).cs = .high := rfl
@[simp] theorem State.csCut_phase (u : FrameUse) : (s.csCut u).phase = s.phase := rfl
@[simp] theorem State.csCut_lat (u : FrameUse) : (s.csCut u).lat = s.lat := rfl
@[simp] theorem State.csCut_cur (u : FrameUse) : (s.csCut u).cur = s.cur := rfl
@[simp] theorem State.csCut_trace (u : FrameUse) : (s.csCut u).trace = s.trace ++ [.cs true] := rfl
@[simp] theorem State.csCut_hostData (u : FrameUse) : (s.csCut u).hostData = s.hostData := rfl
@[simp] theorem State.csCut_env (u : FrameUse) : (s.csCut u).env = s.env.cutShort s.cfg (s.frameRange u) := rfl
@[simp] theorem State.csCut_command (u : FrameUse) : (s.csCut u).command = s.command := rfl
@[simp] theorem State.csCut_cAddr (u : FrameUse) : (s.csCut u).cAddr = s.cAddr := rfl
@[simp] theorem State.csCut_cLen (u : FrameUse) : (s.csCut u).cLen = s.cLen := rfl
@[simp] theorem State.csCut_readLen (u : FrameUse) : (s.csCut u).readLen = s.readLen := rfl
@[simp] theorem State.csCut_segWait (u : FrameUse) : (s.csCut u).segWait = s.segWait := rfl
@[simp] theorem State.csCut_frameTarget (u v : FrameUse) : (s.csCut u).frameTarget v = s.frameTarget v := by cases v <;> rfl
@[simp] theorem State.csCut_frameOp (u v : FrameUse) : (s.csCut u).frameOp v = s.frameOp v := by cases v <;> rfl
@[simp] theorem State.csCut_frameAddr (u v : FrameUse) : (s.csCut u).frameAddr v = s.frameAddr v := by cases v <;> rfl
@[simp] theorem State.csCut_frameLen (u v : FrameUse) : (s.csCut u).frameLen v = s.frameLen v := by cases v <;> rfl

/-! ### csRelease -/

@[simp] theorem State.csRelease_cfg : (s.csRelease).cfg = s.cfg := rfl
@[simp] theorem State.csRelease_regs : (s.csRelease).regs = s.regs := rfl
@[simp] theorem State.csRelease_buf : (s.csRelease).buf = s.buf := rfl
@[simp] theorem State.csRelease_fault : (s.csRelease).fault = s.fault := rfl
@[simp] theorem State.csRelease_initDone : (s.csRelease).initDone = s.initDone := rfl
@[simp] theorem State.csRelease_clockHz : (s.csRelease).clockHz = s.clockHz := rfl
@[simp] theorem State.csRelease_cs : (s.csRelease).cs = .z := rfl
@[simp] theorem State.csRelease_phase : (s.csRelease).phase = s.phase := rfl
@[simp] theorem State.csRelease_lat : (s.csRelease).lat = s.lat := rfl
@[simp] theorem State.csRelease_cur : (s.csRelease).cur = s.cur := rfl
@[simp] theorem State.csRelease_trace : (s.csRelease).trace = s.trace ++ [.csz] := rfl
@[simp] theorem State.csRelease_hostData : (s.csRelease).hostData = s.hostData := rfl
@[simp] theorem State.csRelease_env : (s.csRelease).env = s.env := rfl
@[simp] theorem State.csRelease_command : (s.csRelease).command = s.command := rfl
@[simp] theorem State.csRelease_cAddr : (s.csRelease).cAddr = s.cAddr := rfl
@[simp] theorem State.csRelease_cLen : (s.csRelease).cLen = s.cLen := rfl
@[simp] theorem State.csRelease_readLen : (s.csRelease).readLen = s.readLen := rfl
@[simp] theorem State.csRelease_segWait : (s.csRelease).segWait = s.segWait := rfl
@[simp] theorem State.csRelease_frameTarget (u : FrameUse) : (s.csRelease).frameTarget u = s.frameTarget u := by cases u <;> rfl
@[simp] theorem State.csRelease_frameOp (u : FrameUse) : (s.csRelease).frameOp u = s.frameOp u := by cases u <;> rfl
@[simp] theorem State.csRelease_frameAddr (u : FrameUse) : (s.csRelease).frameAddr u = s.frameAddr u := by cases u <;> rfl
@[simp] theorem State.csRelease_frameLen (u : FrameUse) : (s.csRelease).frameLen u = s.frameLen u := by cases u <;> rfl

/-! ### txnBegin -/

@[simp] theorem State.txnBegin_cfg : (s.txnBegin).cfg = s.cfg := rfl
@[simp] theorem State.txnBegin_regs : (s.txnBegin).regs = s.regs := rfl
@[simp] theorem State.txnBegin_buf : (s.txnBegin).buf = s.buf := rfl
@[simp] theorem State.txnBegin_fault : (s.txnBegin).fault = s.fault := rfl
@[simp] theorem State.txnBegin_initDone : (s.txnBegin).initDone = s.initDone := rfl
@[simp] theorem State.txnBegin_clockHz : (s.txnBegin).clockHz = s.clockHz := rfl
@[simp] theorem State.txnBegin_cs : (s.txnBegin).cs = s.cs := rfl
@[simp] theorem State.txnBegin_phase : (s.txnBegin).phase = s.phase := rfl
@[simp] theorem State.txnBegin_lat : (s.txnBegin).lat = s.lat := rfl
@[simp] theorem State.txnBegin_cur : (s.txnBegin).cur = s.cur := rfl
@[simp] theorem State.txnBegin_trace : (s.txnBegin).trace = s.trace ++ [.beginTxn s.clockHz .msbFirst mode0] := rfl
@[simp] theorem State.txnBegin_hostData : (s.txnBegin).hostData = s.hostData := rfl
@[simp] theorem State.txnBegin_env : (s.txnBegin).env = s.env := rfl
@[simp] theorem State.txnBegin_command : (s.txnBegin).command = s.command := rfl
@[simp] theorem State.txnBegin_cAddr : (s.txnBegin).cAddr = s.cAddr := rfl
@[simp] theorem State.txnBegin_cLen : (s.txnBegin).cLen = s.cLen := rfl
@[simp] theorem State.txnBegin_readLen : (s.txnBegin).readLen = s.readLen := rfl
@[simp] theorem State.txnBegin_segWait : (s.txnBegin).segWait = s.segWait := rfl
@[simp] theorem State.txnBegin_frameTarget (u : FrameUse) : (s.txnBegin).frameTarget u = s.frameTarget u := by cases u <;> rfl
@[simp] theorem State.txnBegin_frameOp (u : FrameUse) : (s.txnBegin).frameOp u = s.frameOp u := by cases u <;> rfl
@[simp] theorem State.txnBegin_frameAddr (u : FrameUse) : (s.txnBegin).frameAddr u = s.frameAddr u := by cases u <;> rfl
@[simp] theorem State.txnBegin_frameLen (u : FrameUse) : (s.txnBegin).frameLen u = s.frameLen u := by cases u <;> rfl

/-! ### txnEnd -/

@[simp] theorem State.txnEnd_cfg : (s.txnEnd).cfg = s.cfg := rfl
@[simp] theorem State.txnEnd_regs : (s.txnEnd).regs = s.regs := rfl
@[simp] theorem State.txnEnd_buf : (s.txnEnd).buf = s.buf := rfl
@[simp] theorem State.txnEnd_fault : (s.txnEnd).fault = s.fault := rfl
@[simp] theorem State.txnEnd_initDone : (s.txnEnd).initDone = s.initDone := rfl
@[simp] theorem State.txnEnd_clockHz : (s.txnEnd).clockHz = s.clockHz := rfl
@[simp] theorem State.txnEnd_cs : (s.txnEnd).cs = s.cs := rfl
@[simp] theorem State.txnEnd_phase : (s.txnEnd).phase = s.phase := rfl
@[simp] theorem State.txnEnd_lat : (s.txnEnd).lat = s.lat := rfl
@[simp] theorem State.txnEnd_cur : (s.txnEnd).cur = s.cur := rfl
@[simp] theorem State.txnEnd_trace : (s.txnEnd).trace = s.trace ++ [.endTxn] := rfl
@[simp] theorem State.txnEnd_hostData : (s.txnEnd).hostData = s.hostData := rfl
@[simp] theorem State.txnEnd_env : (s.txnEnd).env = s.env := rfl
@[simp] theorem State.txnEnd_command : (s.txnEnd).command = s.command := rfl
@[simp] theorem State.txnEnd_cAddr : (s.txnEnd).cAddr = s.cAddr := rfl
@[simp] theorem State.txnEnd_cLen : (s.txnEnd).cLen = s.cLen := rfl
@[simp] theorem State.txnEnd_readLen : (s.txnEnd).readLen = s.readLen := rfl
@[simp] theorem State.txnEnd_segWait : (s.txnEnd).segWait = s.segWait := rfl
@[simp] theorem State.txnEnd_frameTarget (u : FrameUse) : (s.txnEnd).frameTarget u = s.frameTarget u := by cases u <;> rfl
@[simp] theorem State.txnEnd_frameOp (u : FrameUse) : (s.txnEnd).frameOp u = s.frameOp u := by cases u <;> rfl
@[simp] theorem State.txnEnd_frameAddr (u : FrameUse) : (s.txnEnd).frameAddr u = s.frameAddr u := by cases u <;> rfl
@[simp] theorem State.txnEnd_frameLen (u : FrameUse) : (s.txnEnd).frameLen u = s.frameLen u := by cases u <;> rfl

/-! ### xfer -/

@[simp] theorem State.xfer_cfg (tx : Byte) : (s.xfer tx).cfg = s.cfg := rfl
@[simp] theorem State.xfer_regs (tx : Byte) : (s.xfer tx).regs = s.regs := rfl
@[simp] theorem State.xfer_buf (tx : Byte) : (s.xfer tx).buf = s.buf := rfl
@[simp] theorem State.xfer_fault (tx : Byte) : (s.xfer tx).fault = s.fault := rfl
@[simp] theorem State.xfer_initDone (tx : Byte) : (s.xfer tx).initDone = s.initDone := rfl
@[simp] theorem State.xfer_clockHz (tx : Byte) : (s.xfer tx).clockHz = s.clockHz := rfl
@[simp] theorem State.xfer_cs (tx : Byte) : (s.xfer tx).cs = s.cs := rfl
@[simp] theorem State.xfer_phase (tx : Byte) : (s.xfer tx).phase = s.phase := rfl
@[simp] theorem State.xfer_lat (tx : Byte) : (s.xfer tx).lat = s.lat := rfl
@[simp] theorem State.xfer_cur (tx : Byte) : (s.xfer tx).cur = s.cur := rfl
@[simp] theorem State.xfer_trace (tx : Byte) : (s.xfer tx).trace = s.trace ++ [.xfer tx s.xferAnswer.rx s.xferAnswer.ok] := rfl
@[simp] theorem State.xfer_hostData (tx : Byte) : (s.xfer tx).hostData = s.hostData := rfl
@[simp] theorem State.xfer_env (tx : Byte) : (s.xfer tx).env = s.env.afterXfer tx := rfl
@[simp] theorem State.xfer_command (tx : Byte) : (s.xfer tx).command = s.command := rfl
@[simp] theorem State.xfer_cAddr (tx : Byte) : (s.xfer tx).cAddr = s.cAddr := rfl
@[simp] theorem State.xfer_cLen (tx : Byte) : (s.xfer tx).cLen = s.cLen := rfl
@[simp] theorem State.xfer_readLen (tx : Byte) : (s.xfer tx).readLen = s.readLen := rfl
@[simp] theorem State.xfer_segWait (tx : Byte) : (s.xfer tx).segWait = s.segWait := rfl
@[simp] theorem State.xfer_frameTarget (tx : Byte) (u : FrameUse) : (s.xfer tx).frameTarget u = s.frameTarget u := by cases u <;> rfl
@[simp] theorem State.xfer_frameOp (tx : Byte) (u : FrameUse) : (s.xfer tx).frameOp u = s.frameOp u := by cases u <;> rfl
@[simp] theorem State.xfer_frameAddr (tx : Byte) (u : FrameUse) : (s.xfer tx).frameAddr u = s.frameAddr u := by cases u <;> rfl
@[simp] theorem State.xfer_frameLen (tx : Byte) (u : FrameUse) : (s.xfer tx).frameLen u = s.frameLen u := by cases u <;> rfl

/-! ### now -/

@[simp] theorem State.now_cfg : (s.now).cfg = s.cfg := rfl
@[simp] theorem State.now_regs : (s.now).regs = s.regs := rfl
@[simp] theorem State.now_buf : (s.now).buf = s.buf := rfl
@[simp] theorem State.now_fault : (s.now).fault = s.fault := rfl
@[simp] theorem State.now_initDone : (s.now).initDone = s.initDone := rfl
@[simp] theorem State.now_clockHz : (s.now).clockHz = s.clockHz := rfl
@[simp] theorem State.now_cs : (s.now).cs = s.cs := rfl
@[simp] theorem State.now_phase : (s.now).phase = s.phase := rfl
@[simp] theorem State.now_lat : (s.now).lat = s.lat := rfl
@[simp] theorem State.now_cur : (s.now).cur = s.cur := rfl
@[simp] theorem State.now_trace : (s.now).trace = s.trace ++ [.time s.nowValue] := rfl
@[simp] theorem State.now_hostData : (s.now).hostData = s.hostData := rfl
@[simp] theorem State.now_env : (s.now).env = s.env.afterNow := rfl
@[simp] theorem State.now_command : (s.now).command = s.command := rfl
@[simp] theorem State.now_cAddr : (s.now).cAddr = s.cAddr := rfl
@[simp] theorem State.now_cLen : (s.now).cLen = s.cLen := rfl
@[simp] theorem State.now_readLen : (s.now).readLen = s.readLen := rfl
@[simp] theorem State.now_segWait : (s.now).segWait = s.segWait := rfl
@[simp] theorem State.now_frameTarget (u : FrameUse) : (s.now).frameTarget u = s.frameTarget u := by cases u <;> rfl
@[simp] theorem State.now_frameOp (u : FrameUse) : (s.now).frameOp u = s.frameOp u := by cases u <;> rfl
@[simp] theorem State.now_frameAddr (u : FrameUse) : (s.now).frameAddr u = s.frameAddr u := by cases u <;> rfl
@[simp] theorem State.now_frameLen (u : FrameUse) : (s.now).frameLen u = s.frameLen u := by cases u <;> rfl

/-! ### yieldStep -/

@[simp] theorem State.yieldStep_cfg : (s.yieldStep).cfg = s.cfg := rfl
@[simp] theorem State.yieldStep_regs : (s.yieldStep).regs = s.regs := rfl
@[simp] theorem State.yieldStep_buf : (s.yieldStep).buf = s.buf := rfl
@[simp] theorem State.yieldStep_fault : (s.yieldStep).fault = s.fault := rfl
@[simp] theorem State.yieldStep_initDone : (s.yieldStep).initDone = s.initDone := rfl
@[simp] theorem State.yieldStep_clockHz : (s.yieldStep).clockHz = s.clockHz := rfl
@[simp] theorem State.yieldStep_cs : (s.yieldStep).cs = s.cs := rfl
@[simp] theorem State.yieldStep_phase : (s.yieldStep).phase = s.phase := rfl
@[simp] theorem State.yieldStep_lat : (s.yieldStep).lat = s.lat := rfl
@[simp] theorem State.yieldStep_cur : (s.yieldStep).cur = s.cur := rfl
@[simp] theorem State.yieldStep_trace : (s.yieldStep).trace = s.trace ++ [.yield] := rfl
@[simp] theorem State.yieldStep_hostData : (s.yieldStep).hostData = s.hostData := rfl
@[simp] theorem State.yieldStep_env : (s.yieldStep).env = s.env := rfl
@[simp] theorem State.yieldStep_command : (s.yieldStep).command = s.command := rfl
@[simp] theorem State.yieldStep_cAddr : (s.yieldStep).cAddr = s.cAddr := rfl
@[simp] theorem State.yieldStep_cLen : (s.yieldStep).cLen = s.cLen := rfl
@[simp] theorem State.yieldStep_readLen : (s.yieldStep).readLen = s.readLen := rfl
@[simp] theorem State.yieldStep_segWait : (s.yieldStep).segWait = s.segWait := rfl
@[simp] theorem State.yieldStep_frameTarget (u : FrameUse) : (s.yieldStep).frameTarget u = s.frameTarget u := by cases u <;> rfl
@[simp] theorem State.yieldStep_frameOp (u : FrameUse) : (s.yieldStep).frameOp u = s.frameOp u := by cases u <;> rfl
@[simp] theorem State.yieldStep_frameAddr (u : FrameUse) : (s.yieldStep).frameAddr u = s.frameAddr u := by cases u <;> rfl
@[simp] theorem State.yieldStep_frameLen (u : FrameUse) : (s.yieldStep).frameLen u = s.frameLen u := by cases u <;> rfl

/-! ### start -/

@[simp] theorem State.start_cfg (v : Word) : (s.start v).cfg = s.cfg := rfl
@[simp] theorem State.start_regs (v : Word) : (s.start v).regs = s.regs := rfl
@[simp] theorem State.start_buf (v : Word) : (s.start v).buf = s.buf := rfl
@[simp] theorem State.start_fault (v : Word) : (s.start v).fault = s.fault := rfl
@[simp] theorem State.start_initDone (v : Word) : (s.start v).initDone = s.initDone := rfl
@[simp] theorem State.start_clockHz (v : Word) : (s.start v).clockHz = s.clockHz := rfl
@[simp] theorem State.start_cs (v : Word) : (s.start v).cs = s.cs := rfl
@[simp] theorem State.start_phase (v : Word) : (s.start v).phase = .check := rfl
@[simp] theorem State.start_lat (v : Word) : (s.start v).lat = { code := v.setWidth 8, addr := s.regs.addr, len := s.regs.len, data := s.regs.wdata, clk := s.regs.clkcfg } := rfl
@[simp] theorem State.start_cur (v : Word) : (s.start v).cur = s.cur := rfl
@[simp] theorem State.start_trace (v : Word) : (s.start v).trace = s.trace := rfl
@[simp] theorem State.start_hostData (v : Word) : (s.start v).hostData = s.hostData := rfl
@[simp] theorem State.start_env (v : Word) : (s.start v).env = s.env := rfl

/-! ### succeed -/

@[simp] theorem State.succeed_cfg (n : Word) : (s.succeed n).cfg = s.cfg := rfl
@[simp] theorem State.succeed_regs (n : Word) : (s.succeed n).regs = { s.regs with result := n, err := .none } := rfl
@[simp] theorem State.succeed_buf (n : Word) : (s.succeed n).buf = s.buf := rfl
@[simp] theorem State.succeed_fault (n : Word) : (s.succeed n).fault = s.fault := rfl
@[simp] theorem State.succeed_initDone (n : Word) : (s.succeed n).initDone = s.initDone := rfl
@[simp] theorem State.succeed_clockHz (n : Word) : (s.succeed n).clockHz = s.clockHz := rfl
@[simp] theorem State.succeed_cs (n : Word) : (s.succeed n).cs = s.cs := rfl
@[simp] theorem State.succeed_phase (n : Word) : (s.succeed n).phase = .idle := rfl
@[simp] theorem State.succeed_lat (n : Word) : (s.succeed n).lat = s.lat := rfl
@[simp] theorem State.succeed_cur (n : Word) : (s.succeed n).cur = s.cur := rfl
@[simp] theorem State.succeed_trace (n : Word) : (s.succeed n).trace = s.trace := rfl
@[simp] theorem State.succeed_hostData (n : Word) : (s.succeed n).hostData = s.hostData := rfl
@[simp] theorem State.succeed_env (n : Word) : (s.succeed n).env = s.env := rfl
@[simp] theorem State.succeed_command (n : Word) : (s.succeed n).command = s.command := rfl
@[simp] theorem State.succeed_cAddr (n : Word) : (s.succeed n).cAddr = s.cAddr := rfl
@[simp] theorem State.succeed_cLen (n : Word) : (s.succeed n).cLen = s.cLen := rfl
@[simp] theorem State.succeed_readLen (n : Word) : (s.succeed n).readLen = s.readLen := rfl
@[simp] theorem State.succeed_segWait (n : Word) : (s.succeed n).segWait = s.segWait := rfl
@[simp] theorem State.succeed_frameTarget (n : Word) (u : FrameUse) : (s.succeed n).frameTarget u = s.frameTarget u := by cases u <;> rfl
@[simp] theorem State.succeed_frameOp (n : Word) (u : FrameUse) : (s.succeed n).frameOp u = s.frameOp u := by cases u <;> rfl
@[simp] theorem State.succeed_frameAddr (n : Word) (u : FrameUse) : (s.succeed n).frameAddr u = s.frameAddr u := by cases u <;> rfl
@[simp] theorem State.succeed_frameLen (n : Word) (u : FrameUse) : (s.succeed n).frameLen u = s.frameLen u := by cases u <;> rfl

/-! ### raiseErr -/

@[simp] theorem State.raiseErr_cfg (c : ErrCode) : (s.raiseErr c).cfg = s.cfg := rfl
@[simp] theorem State.raiseErr_regs (c : ErrCode) : (s.raiseErr c).regs = { s.regs with result := 0, err := c } := rfl
@[simp] theorem State.raiseErr_buf (c : ErrCode) : (s.raiseErr c).buf = s.buf := rfl
@[simp] theorem State.raiseErr_fault (c : ErrCode) : (s.raiseErr c).fault = s.fault := rfl
@[simp] theorem State.raiseErr_initDone (c : ErrCode) : (s.raiseErr c).initDone = s.initDone := rfl
@[simp] theorem State.raiseErr_clockHz (c : ErrCode) : (s.raiseErr c).clockHz = s.clockHz := rfl
@[simp] theorem State.raiseErr_cs (c : ErrCode) : (s.raiseErr c).cs = s.cs := rfl
@[simp] theorem State.raiseErr_phase (c : ErrCode) : (s.raiseErr c).phase = .idle := rfl
@[simp] theorem State.raiseErr_lat (c : ErrCode) : (s.raiseErr c).lat = s.lat := rfl
@[simp] theorem State.raiseErr_cur (c : ErrCode) : (s.raiseErr c).cur = s.cur := rfl
@[simp] theorem State.raiseErr_trace (c : ErrCode) : (s.raiseErr c).trace = s.trace := rfl
@[simp] theorem State.raiseErr_hostData (c : ErrCode) : (s.raiseErr c).hostData = s.hostData := rfl
@[simp] theorem State.raiseErr_env (c : ErrCode) : (s.raiseErr c).env = s.env := rfl
@[simp] theorem State.raiseErr_command (c : ErrCode) : (s.raiseErr c).command = s.command := rfl
@[simp] theorem State.raiseErr_cAddr (c : ErrCode) : (s.raiseErr c).cAddr = s.cAddr := rfl
@[simp] theorem State.raiseErr_cLen (c : ErrCode) : (s.raiseErr c).cLen = s.cLen := rfl
@[simp] theorem State.raiseErr_readLen (c : ErrCode) : (s.raiseErr c).readLen = s.readLen := rfl
@[simp] theorem State.raiseErr_segWait (c : ErrCode) : (s.raiseErr c).segWait = s.segWait := rfl
@[simp] theorem State.raiseErr_frameTarget (c : ErrCode) (u : FrameUse) : (s.raiseErr c).frameTarget u = s.frameTarget u := by cases u <;> rfl
@[simp] theorem State.raiseErr_frameOp (c : ErrCode) (u : FrameUse) : (s.raiseErr c).frameOp u = s.frameOp u := by cases u <;> rfl
@[simp] theorem State.raiseErr_frameAddr (c : ErrCode) (u : FrameUse) : (s.raiseErr c).frameAddr u = s.frameAddr u := by cases u <;> rfl
@[simp] theorem State.raiseErr_frameLen (c : ErrCode) (u : FrameUse) : (s.raiseErr c).frameLen u = s.frameLen u := by cases u <;> rfl

/-! ### recordFault -/

@[simp] theorem State.recordFault_cfg (c : Cause) : (s.recordFault c).cfg = s.cfg := rfl
@[simp] theorem State.recordFault_regs (c : Cause) : (s.recordFault c).regs = s.regs := rfl
@[simp] theorem State.recordFault_buf (c : Cause) : (s.recordFault c).buf = s.buf := rfl
@[simp] theorem State.recordFault_fault (c : Cause) : (s.recordFault c).fault = (match s.fault with | some d => some d | none => some c) := rfl
@[simp] theorem State.recordFault_initDone (c : Cause) : (s.recordFault c).initDone = s.initDone := rfl
@[simp] theorem State.recordFault_clockHz (c : Cause) : (s.recordFault c).clockHz = s.clockHz := rfl
@[simp] theorem State.recordFault_cs (c : Cause) : (s.recordFault c).cs = s.cs := rfl
@[simp] theorem State.recordFault_phase (c : Cause) : (s.recordFault c).phase = s.phase := rfl
@[simp] theorem State.recordFault_lat (c : Cause) : (s.recordFault c).lat = s.lat := rfl
@[simp] theorem State.recordFault_cur (c : Cause) : (s.recordFault c).cur = s.cur := rfl
@[simp] theorem State.recordFault_trace (c : Cause) : (s.recordFault c).trace = s.trace := rfl
@[simp] theorem State.recordFault_hostData (c : Cause) : (s.recordFault c).hostData = s.hostData := rfl
@[simp] theorem State.recordFault_env (c : Cause) : (s.recordFault c).env = s.env := rfl
@[simp] theorem State.recordFault_command (c : Cause) : (s.recordFault c).command = s.command := rfl
@[simp] theorem State.recordFault_cAddr (c : Cause) : (s.recordFault c).cAddr = s.cAddr := rfl
@[simp] theorem State.recordFault_cLen (c : Cause) : (s.recordFault c).cLen = s.cLen := rfl
@[simp] theorem State.recordFault_readLen (c : Cause) : (s.recordFault c).readLen = s.readLen := rfl
@[simp] theorem State.recordFault_segWait (c : Cause) : (s.recordFault c).segWait = s.segWait := rfl
@[simp] theorem State.recordFault_frameTarget (c : Cause) (u : FrameUse) : (s.recordFault c).frameTarget u = s.frameTarget u := by cases u <;> rfl
@[simp] theorem State.recordFault_frameOp (c : Cause) (u : FrameUse) : (s.recordFault c).frameOp u = s.frameOp u := by cases u <;> rfl
@[simp] theorem State.recordFault_frameAddr (c : Cause) (u : FrameUse) : (s.recordFault c).frameAddr u = s.frameAddr u := by cases u <;> rfl
@[simp] theorem State.recordFault_frameLen (c : Cause) (u : FrameUse) : (s.recordFault c).frameLen u = s.frameLen u := by cases u <;> rfl

/-! ### setSched -/

@[simp] theorem State.setSched_cfg (l : List Event) : (s.setSched l).cfg = s.cfg := rfl
@[simp] theorem State.setSched_regs (l : List Event) : (s.setSched l).regs = s.regs := rfl
@[simp] theorem State.setSched_buf (l : List Event) : (s.setSched l).buf = s.buf := rfl
@[simp] theorem State.setSched_fault (l : List Event) : (s.setSched l).fault = s.fault := rfl
@[simp] theorem State.setSched_initDone (l : List Event) : (s.setSched l).initDone = s.initDone := rfl
@[simp] theorem State.setSched_clockHz (l : List Event) : (s.setSched l).clockHz = s.clockHz := rfl
@[simp] theorem State.setSched_cs (l : List Event) : (s.setSched l).cs = s.cs := rfl
@[simp] theorem State.setSched_phase (l : List Event) : (s.setSched l).phase = s.phase := rfl
@[simp] theorem State.setSched_lat (l : List Event) : (s.setSched l).lat = s.lat := rfl
@[simp] theorem State.setSched_cur (l : List Event) : (s.setSched l).cur = s.cur := rfl
@[simp] theorem State.setSched_trace (l : List Event) : (s.setSched l).trace = s.trace := rfl
@[simp] theorem State.setSched_hostData (l : List Event) : (s.setSched l).hostData = s.hostData := rfl
@[simp] theorem State.setSched_env (l : List Event) : (s.setSched l).env = { s.env with sched := l } := rfl
@[simp] theorem State.setSched_command (l : List Event) : (s.setSched l).command = s.command := rfl
@[simp] theorem State.setSched_cAddr (l : List Event) : (s.setSched l).cAddr = s.cAddr := rfl
@[simp] theorem State.setSched_cLen (l : List Event) : (s.setSched l).cLen = s.cLen := rfl
@[simp] theorem State.setSched_readLen (l : List Event) : (s.setSched l).readLen = s.readLen := rfl
@[simp] theorem State.setSched_segWait (l : List Event) : (s.setSched l).segWait = s.segWait := rfl
@[simp] theorem State.setSched_frameTarget (l : List Event) (u : FrameUse) : (s.setSched l).frameTarget u = s.frameTarget u := by cases u <;> rfl
@[simp] theorem State.setSched_frameOp (l : List Event) (u : FrameUse) : (s.setSched l).frameOp u = s.frameOp u := by cases u <;> rfl
@[simp] theorem State.setSched_frameAddr (l : List Event) (u : FrameUse) : (s.setSched l).frameAddr u = s.frameAddr u := by cases u <;> rfl
@[simp] theorem State.setSched_frameLen (l : List Event) (u : FrameUse) : (s.setSched l).frameLen u = s.frameLen u := by cases u <;> rfl

/-! ### setBus -/

@[simp] theorem State.setBus_cfg (g : Bool) : (s.setBus g).cfg = s.cfg := rfl
@[simp] theorem State.setBus_regs (g : Bool) : (s.setBus g).regs = s.regs := rfl
@[simp] theorem State.setBus_buf (g : Bool) : (s.setBus g).buf = s.buf := rfl
@[simp] theorem State.setBus_fault (g : Bool) : (s.setBus g).fault = s.fault := rfl
@[simp] theorem State.setBus_initDone (g : Bool) : (s.setBus g).initDone = s.initDone := rfl
@[simp] theorem State.setBus_clockHz (g : Bool) : (s.setBus g).clockHz = s.clockHz := rfl
@[simp] theorem State.setBus_cs (g : Bool) : (s.setBus g).cs = s.cs := rfl
@[simp] theorem State.setBus_phase (g : Bool) : (s.setBus g).phase = s.phase := rfl
@[simp] theorem State.setBus_lat (g : Bool) : (s.setBus g).lat = s.lat := rfl
@[simp] theorem State.setBus_cur (g : Bool) : (s.setBus g).cur = s.cur := rfl
@[simp] theorem State.setBus_trace (g : Bool) : (s.setBus g).trace = s.trace := rfl
@[simp] theorem State.setBus_hostData (g : Bool) : (s.setBus g).hostData = s.hostData := rfl
@[simp] theorem State.setBus_env (g : Bool) : (s.setBus g).env = { s.env with busFree := g } := rfl
@[simp] theorem State.setBus_command (g : Bool) : (s.setBus g).command = s.command := rfl
@[simp] theorem State.setBus_cAddr (g : Bool) : (s.setBus g).cAddr = s.cAddr := rfl
@[simp] theorem State.setBus_cLen (g : Bool) : (s.setBus g).cLen = s.cLen := rfl
@[simp] theorem State.setBus_readLen (g : Bool) : (s.setBus g).readLen = s.readLen := rfl
@[simp] theorem State.setBus_segWait (g : Bool) : (s.setBus g).segWait = s.segWait := rfl
@[simp] theorem State.setBus_frameTarget (g : Bool) (u : FrameUse) : (s.setBus g).frameTarget u = s.frameTarget u := by cases u <;> rfl
@[simp] theorem State.setBus_frameOp (g : Bool) (u : FrameUse) : (s.setBus g).frameOp u = s.frameOp u := by cases u <;> rfl
@[simp] theorem State.setBus_frameAddr (g : Bool) (u : FrameUse) : (s.setBus g).frameAddr u = s.frameAddr u := by cases u <;> rfl
@[simp] theorem State.setBus_frameLen (g : Bool) (u : FrameUse) : (s.setBus g).frameLen u = s.frameLen u := by cases u <;> rfl

end Sys2Proof.Machine
end

