-- ==== Sys2Proof/Laws/Ops.lean ====
section
/-! SUPPORT. What each shared operation can do, said once; proofs cite these and do not unfold the operation. -/

namespace Sys2Proof.Machine

/-- A command that ends at once runs at `check` only. -/
theorem runAtOnce_next {body : State → State} {s t : State} (h : runAtOnce body s = .next t) :
    s.phase = .check ∧ t = body s := by
  unfold runAtOnce at h; split at h <;> simp_all

theorem runPin_next {body done : State → State} {s t : State} (h : runPin body done s = .next t) :
    (s.phase = .check ∧ t = body s) ∨ (s.phase = .pin ∧ t = done s) := by
  unfold runPin at h; split at h <;> simp_all

theorem runFrames_next {body done : State → State} {s t : State} (h : runFrames body done s = .next t) :
    (s.phase = .check ∧ t = body s) ∨ (s.phase = .complete ∧ t = done s) ∨
      (∃ c, s.phase = .failing c ∧ t = s.raiseErr c) := by
  unfold runFrames at h; split at h <;> simp_all

theorem runWaiting_next {body done : State → State} {s t : State} (h : runWaiting body done s = .next t) :
    (s.phase = .check ∧ t = body s) ∨ (∃ r, s.phase = .waitT0 r ∧ t = s.startWait r) ∨
      (∃ r, s.phase = .pollT r ∧ t = s.pollTime r) ∨ (∃ r, s.phase = .pollY r ∧ t = s.pollYield r) ∨
      (s.phase = .complete ∧ t = done s) ∨ (∃ c, s.phase = .failing c ∧ t = s.raiseErr c) := by
  unfold runWaiting at h; split at h <;> simp_all

/-- A checked transfer either goes on with the answer or closes the frame. -/
theorem State.xferChk_cases (u : FrameUse) (tx : Byte) (k : Byte → State → State) (s : State) :
    (s.xferAnswer.ok = true ∧ s.xferChk u tx k = k s.xferAnswer.rx (s.xfer tx)) ∨
      (s.xferAnswer.ok = false ∧ s.xferChk u tx k = (s.xfer tx).goto (.frame u (.csHigh true))) := by
  unfold State.xferChk; split <;> simp_all

/-- Everything a frame step can do. -/
theorem frameStep_next {op : Byte} {data : FrameUse → State → Res} {s t : State} (h : frameStep op data s = .next t) :
    ∃ u pt, s.phase = .frame u pt ∧ s.frameOp u = op ∧
      ((pt = .csLow ∧ t = s.openFrame u) ∨
       (pt = .txnBegin ∧ s.env.busFree = true ∧ t = s.txnBegin.goto (.frame u .opcode)) ∨
       (pt = .txnBegin ∧ s.env.busFree = false ∧ t = s) ∨
       (pt = .opcode ∧ t = s.xferChk u op (fun _ t => t.enterAddr u 0)) ∨
       (∃ j b, pt = .addr j ∧ (s.frameAddr u)[j]? = some b ∧ t = s.xferChk u b (fun _ t => t.enterAddr u (j + 1))) ∨
       (pt = .data ∧ data u s = .next t) ∨
       (pt = .csHigh false ∧ t = s.csHigh.goto (.frame u (.txnEnd false))) ∨
       (pt = .csHigh true ∧ t = (s.csCut u).goto (.frame u (.txnEnd true))) ∨
       (pt = .txnEnd false ∧ t = s.txnEnd.afterFrame u) ∨
       (pt = .txnEnd true ∧ t = s.txnEnd.goto (.failing .bus))) := by
  unfold frameStep at h
  split at h
  · rename_i u pt hp
    split at h
    · rename_i hop
      refine ⟨u, pt, hp, hop, ?_⟩
      split at h
      · simp_all
      · split at h <;> simp_all
      · simp_all
      · split at h <;> simp_all
      · simp_all
      · simp_all
      · simp_all
      · simp_all
      · simp_all
    · simp at h
  all_goals simp at h

/-- The data phase of RDSR. -/
theorem statusData_next {u : FrameUse} {s t : State} (h : statusData u s = .next t) :
    t = s.xferChk u s.cfg.dummyTx
      fun rx t => (t.setCur { t.cur with sr := rx }).goto (.frame u (.csHigh false)) := by
  simpa [statusData] using h.symm

/-- The data phase of READ. -/
theorem readData_next {u : FrameUse} {s t : State} (h : readData u s = .next t) :
    (u = .read ∧ s.hasPlace = true ∧ t = s.xferChk u s.cfg.dummyTx fun rx t => (t.keepByte rx).nextData u) ∨
      (u = .compare ∧ ∃ new, s.srcByte s.cur.i = some new ∧
        t = s.xferChk u s.cfg.dummyTx fun rx t => t.compareByte u new rx) := by
  unfold readData at h
  split at h
  · split at h <;> simp_all
  · split at h <;> simp_all
  all_goals simp at h

/-- The data phase of WRITE. -/
theorem writeData_next {u : FrameUse} {s t : State} (h : writeData u s = .next t) :
    ∃ b, s.srcByte (s.cur.k + s.cur.i) = some b ∧ t = s.xferChk u b fun _ t => t.nextData u := by
  unfold writeData at h
  split at h <;> simp_all

/-- A frame without a data phase has no step there. -/
theorem noData_not_next {u : FrameUse} {s t : State} : noData u s ≠ .next t := by simp [noData]

end Sys2Proof.Machine
end

