-- ==== Sys2Proof/Laws/Commands.lean ====
section
/-! SUPPORT. What a step of a host command can do, said once. -/

namespace Sys2Proof.Machine

/-- Everything the first step of a command other than INIT and DEINIT can do. -/
inductive CheckStep (s : State) : State → Prop
  | precondition (c : Cursor) : CheckStep s ((s.setCur c).raiseErr .precondition)
  | notInit : s.initDone = false → CheckStep s (s.raiseFault .notInit)
  | bufRange : s.cfg.bufBytes < s.cLen → CheckStep s (s.raiseFault .bufRange)
  | returns (n : Word) : CheckStep s (s.succeed n)
  | opens (u : FrameUse) : u = .status ∨ u = .wrenCmd ∨ u = .wrdi → CheckStep s (s.openFrame u)
  | waits (r : WaitRet) : CheckStep s (s.startWait r)
  | segments (c : Cursor) (r : WaitRet) : CheckStep s (((s.setCur c).setEnv s.env.keepBefore).startWait r)

theorem beginSegments_check (a len n : Nat) (s : State) : CheckStep s (s.beginSegments a len n) := by
  unfold State.beginSegments; dsimp only; split
  · exact .segments _ _
  · exact .precondition _

theorem requireInit_check {s : State} {k : State → State} (h : CheckStep s (k s)) : CheckStep s (s.requireInit k) := by
  unfold State.requireInit; split
  · exact h
  · exact .notInit (by simp_all)

theorem requireThat_check {s : State} {b : Bool} {k : State → State} (h : CheckStep s (k s)) :
    CheckStep s (s.requireThat b k) := by
  unfold State.requireThat; split
  · exact h
  · exact .precondition s.cur

theorem requireBuf_check {s : State} {k : State → State} (h : CheckStep s (k s)) : CheckStep s (s.requireBuf k) := by
  unfold State.requireBuf; split
  · exact .bufRange ‹_›
  · exact h

theorem unlessEmpty_check {s : State} {k : State → State} (h : CheckStep s (k s)) : CheckStep s (s.unlessEmpty k) := by
  unfold State.unlessEmpty; split
  · exact .returns 0
  · exact h

/-- Everything a step of the host command `i` can do. -/
inductive CmdStep (i : Instr) (s : State) : State → Prop
  | check {t : State} : s.phase = .check → CheckStep s t → CmdStep i s t
  | initPin : i = .init → s.phase = .check →
      CmdStep i s (({ s with clockHz := if s.lat.clk = 0 then s.cfg.defaultClockHz else s.lat.clk }).csHigh.goto .pin)
  | initEnd : i = .init → s.phase = .pin → CmdStep i s (({ s with initDone := true }).succeed 1)
  | deinitPin : i = .deinit → s.phase = .check → CmdStep i s (s.csRelease.goto .pin)
  | deinitEnd : i = .deinit → s.phase = .pin → CmdStep i s (({ s with initDone := false }).succeed 1)
  | waitT0 (r : WaitRet) : s.phase = .waitT0 r → CmdStep i s (s.startWait r)
  | pollT (r : WaitRet) : s.phase = .pollT r → CmdStep i s (s.pollTime r)
  | pollY (r : WaitRet) : s.phase = .pollY r → CmdStep i s (s.pollYield r)
  | complete (n : Word) : s.phase = .complete → CmdStep i s (s.succeed n)
  | completeRdata (v : Byte) (n : Word) : i = .readByte ∨ i = .readStatus ∨ i = .isReady → s.phase = .complete →
      CmdStep i s ((s.setRdata v).succeed n)
  | failing (c : ErrCode) : s.phase = .failing c → CmdStep i s (s.raiseErr c)

theorem runWaiting_cmd {i : Instr} {body done : State → State} {s t : State} (h : runWaiting body done s = .next t)
    (h1 : CheckStep s (body s)) (h2 : s.phase = .complete → CmdStep i s (done s)) : CmdStep i s t := by
  rcases runWaiting_next h with ⟨hq, rfl⟩ | ⟨r, hq, rfl⟩ | ⟨r, hq, rfl⟩ | ⟨r, hq, rfl⟩ | ⟨hq, rfl⟩ | ⟨c, hq, rfl⟩
  · exact .check hq h1
  · exact .waitT0 r hq
  · exact .pollT r hq
  · exact .pollY r hq
  · exact h2 hq
  · exact .failing c hq

theorem runFrames_cmd {i : Instr} {body done : State → State} {s t : State} (h : runFrames body done s = .next t)
    (h1 : CheckStep s (body s)) (h2 : s.phase = .complete → CmdStep i s (done s)) : CmdStep i s t := by
  rcases runFrames_next h with ⟨hq, rfl⟩ | ⟨hq, rfl⟩ | ⟨c, hq, rfl⟩
  · exact .check hq h1
  · exact h2 hq
  · exact .failing c hq

/-- Every step of a host command is one of `CmdStep`. -/
theorem command_next {i : Instr} {s t : State} (hs : i.space = .host) (h : exec i s = .next t) : CmdStep i s t := by
  cases i <;> simp only [Instr.space, reduceCtorEq] at hs <;>
    simp only [exec, execInit, execDeinit, execGetCapacity, execGetPageSize, execReadStatus, execIsReady, execWriteEnable,
      execWriteDisable, execReadByte, execReadBlock, execWriteByte, execWriteBlock, execWritePage, execUpdateByte,
      execUpdateBlock, execUpdatePage] at h
  case init =>
    rcases runPin_next h with ⟨hq, rfl⟩ | ⟨hq, rfl⟩
    · exact .initPin rfl hq
    · exact .initEnd rfl hq
  case deinit =>
    rcases runPin_next h with ⟨hq, rfl⟩ | ⟨hq, rfl⟩
    · exact .deinitPin rfl hq
    · exact .deinitEnd rfl hq
  case getCapacity => obtain ⟨hq, rfl⟩ := runAtOnce_next h; exact .check hq (.returns _)
  case getPageSize => obtain ⟨hq, rfl⟩ := runAtOnce_next h; exact .check hq (.returns _)
  case readStatus => exact runFrames_cmd h (requireInit_check (.opens _ (by simp))) (.completeRdata s.cur.sr _ (by simp))
  case isReady => exact runFrames_cmd h (requireInit_check (.opens _ (by simp))) (.completeRdata s.cur.sr _ (by simp))
  case writeEnable => exact runFrames_cmd h (requireInit_check (.opens _ (by simp))) (.complete _)
  case writeDisable => exact runFrames_cmd h (requireInit_check (.opens _ (by simp))) (.complete _)
  case readByte =>
    exact runWaiting_cmd h (requireInit_check (requireThat_check (.waits _))) (.completeRdata s.cur.d _ (by simp))
  case readBlock =>
    exact runWaiting_cmd h (requireInit_check (requireThat_check (requireBuf_check (unlessEmpty_check (.waits _)))))
      (.complete _)
  case writeByte => exact runWaiting_cmd h (requireInit_check (requireThat_check (beginSegments_check _ _ _ _))) (.complete _)
  case updateByte => exact runWaiting_cmd h (requireInit_check (requireThat_check (beginSegments_check _ _ _ _))) (.complete _)
  all_goals
    exact runWaiting_cmd h
      (requireInit_check (requireThat_check (requireBuf_check (unlessEmpty_check (beginSegments_check _ _ _ _))))) (.complete _)

end Sys2Proof.Machine
end

