-- ==== Sys2Proof/Laws/Decode.lean ====
section
/-! SUPPORT. Laws of the encodings and of valid configurations. -/

namespace Sys2Proof

/-- No substitution applies to an opcode other than READ and WRITE (30_encoding.md R125). -/
theorem wireOp_other (c : Config) {op : Byte} (a : Nat) (h1 : op ≠ opREAD) (h2 : op ≠ opWRITE) : wireOp c op a = op := by
  unfold wireOp
  rw [if_neg]
  rintro ⟨-, h | h, -⟩
  · exact h1 h
  · exact h2 h

theorem wireOp_cases (c : Config) (op : Byte) (a : Nat) : wireOp c op a = op ∨ wireOp c op a = op ||| 0x08 := by
  unfold wireOp; split <;> simp

theorem addrBytes_length (c : Config) (a : Nat) : (addrBytes c a).length = c.nAddr := by
  unfold addrBytes Config.nAddr; split <;> split <;> simp

theorem nAddr_pos (c : Config) : 0 < c.nAddr := by unfold Config.nAddr; omega

/-- A host code decodes to a host command, whose code it is. -/
theorem decodeHost_encode {w : Byte} {i : Instr} (h : decodeHost w = some i) : i.space = .host ∧ encode i = w := by
  simp only [decodeHost] at h
  split at h <;> simp at h <;> subst h <;> simp [Instr.space, encode]

/-- A wire byte decodes to a wire opcode, whose byte it is. -/
theorem decodeWire_encode {w : Byte} {i : Instr} (h : decodeWire w = some i) : i.space = .wire ∧ encode i = w := by
  simp only [decodeWire] at h
  split at h <;> simp at h <;> subst h <;> simp [Instr.space, encode]

/-- On a valid configuration the page size is positive and divides the capacity (00_scope.md R9). -/
theorem valid_page {c : Config} (h : c.valid = true) : 0 < c.page ∧ c.page ∣ c.cap := by
  simp only [Config.valid, decide_eq_true_eq] at h
  obtain ⟨-, -, h3, -, h5, -, -⟩ := h
  refine ⟨?_, Nat.dvd_of_mod_eq_zero h5⟩
  rw [h3]; exact Nat.two_pow_pos _

/-- The first segment of a range is not empty, stays in its page, and the next one starts a page (43_write.md R244). -/
theorem firstSeg_fits {P a n : Nat} (hp : 0 < P) (h1 : 1 ≤ n) :
    a % P + min (P - a % P) n ≤ P ∧ 1 ≤ min (P - a % P) n ∧
      (min (P - a % P) n < n → (a + min (P - a % P) n) % P = 0) := by
  have := Nat.mod_lt a hp
  refine ⟨by omega, by omega, fun h => ?_⟩
  rw [show min (P - a % P) n = P - a % P by omega,
    show a + (P - a % P) = P * (a / P) + P by have := Nat.div_add_mod a P; omega]
  simp

end Sys2Proof
end

