-- ==== Sys2Proof/Laws/Memory.lean ====
section
/-! SUPPORT. The laws of a byte memory: read after write, the canonical form is kept, equal reads are equal memories. -/

namespace Sys2Proof.Machine

@[simp] theorem Memory.get?_nil (a : Nat) : Memory.get? [] a = none := rfl

theorem Memory.get?_set (m : Memory) (a b : Nat) (v : Byte) :
    (m.set a v).get? b = if b = a then some v else m.get? b := by
  induction m with
  | nil => simp [Memory.set, Memory.get?]
  | cons c m ih =>
    obtain ⟨d, w⟩ := c
    simp only [Memory.set]
    split
    · simp [Memory.get?]
    · split
      · subst_vars; simp only [Memory.get?]; split <;> rfl
      · simp only [Memory.get?, ih]; split <;> split <;> simp_all

@[simp] theorem Memory.get?_set_same (m : Memory) (a : Nat) (v : Byte) : (m.set a v).get? a = some v := by
  simp [Memory.get?_set]

theorem Memory.get?_set_ne (m : Memory) {a b : Nat} (v : Byte) (h : b ≠ a) : (m.set a v).get? b = m.get? b := by
  simp [Memory.get?_set, h]

theorem Memory.above_set {lo a : Nat} {m : Memory} (v : Byte) (hm : Memory.above lo m = true) (ha : lo < a) :
    Memory.above lo (m.set a v) = true := by
  cases m with
  | nil => simpa [Memory.set, Memory.above] using ha
  | cons c m =>
    obtain ⟨d, w⟩ := c
    simp only [Memory.set]
    split
    · simpa [Memory.above] using ha
    · split
      · simpa [Memory.above] using ha
      · simpa [Memory.above] using hm

/-- Every write keeps the canonical form. -/
theorem Memory.set_wf {m : Memory} (a : Nat) (v : Byte) (h : Memory.wf m = true) : Memory.wf (m.set a v) = true := by
  induction m with
  | nil => rfl
  | cons c m ih =>
    obtain ⟨d, w⟩ := c
    simp only [Memory.wf, Bool.and_eq_true] at h
    simp only [Memory.set]
    split
    · simp_all [Memory.wf, Memory.above]
    · split
      · simp_all [Memory.wf]
      · simp only [Memory.wf, Bool.and_eq_true]
        exact ⟨Memory.above_set v h.1 (by omega), ih h.2⟩

/-- Writing a list of bytes keeps the canonical form. -/
theorem Memory.setAll_wf {m : Memory} (l : Memory) (h : Memory.wf m = true) : Memory.wf (m.setAll l) = true := by
  induction l generalizing m with
  | nil => exact h
  | cons c l ih => exact ih (Memory.set_wf c.1 c.2 h)

theorem Memory.get?_le_of_above {lo a : Nat} {m : Memory} (hm : Memory.wf m = true) (ha : Memory.above lo m = true)
    (h : a ≤ lo) : m.get? a = none := by
  induction m generalizing lo with
  | nil => rfl
  | cons c m ih =>
    obtain ⟨d, w⟩ := c
    simp only [Memory.wf, Memory.above, Bool.and_eq_true, decide_eq_true_eq] at hm ha
    simp only [Memory.get?]
    rw [if_neg (by omega)]
    exact ih hm.2 hm.1 (by omega)

/-- After storing a list, an address outside it reads as before. -/
theorem Memory.get?_setAll_ne {m : Memory} {l : Memory} {x : Nat} (h : ∀ c ∈ l, c.1 ≠ x) : (m.setAll l).get? x = m.get? x := by
  induction l generalizing m with
  | nil => rfl
  | cons c l ih =>
    rw [Memory.setAll, ih fun d hd => h d (by simp [hd]), Memory.get?_set_ne _ _ (Ne.symm (h c (by simp)))]

/-- After storing a list, an address in it reads as one of the list's bytes for it. -/
theorem Memory.get?_setAll_mem {m : Memory} {l : Memory} {x : Nat} (h : ∃ c ∈ l, c.1 = x) :
    ∃ b, (x, b) ∈ l ∧ (m.setAll l).get? x = some b := by
  induction l generalizing m with
  | nil => simp at h
  | cons c l ih =>
    by_cases h' : ∃ d ∈ l, d.1 = x
    · obtain ⟨b, hb, e⟩ := ih (m := m.set c.1 c.2) h'
      exact ⟨b, by simp [hb], e⟩
    · obtain ⟨d, hd, rfl⟩ := h
      rcases List.mem_cons.1 hd with rfl | hd
      · refine ⟨d.2, by simp, ?_⟩
        rw [Memory.setAll, Memory.get?_setAll_ne fun e he hx => h' ⟨e, he, hx⟩, Memory.get?_set_same]
      · exact absurd ⟨d, hd, rfl⟩ h'

/-- The entries of `bytesFrom`. -/
theorem mem_bytesFrom {a x : Nat} {l : List Byte} {b : Byte} :
    (x, b) ∈ bytesFrom a l ↔ ∃ j, x = a + j ∧ l[j]? = some b := by
  induction l generalizing a with
  | nil => simp [bytesFrom]
  | cons d l ih =>
    simp only [bytesFrom, List.mem_cons, Prod.mk.injEq, ih]
    constructor
    · rintro (⟨rfl, rfl⟩ | ⟨j, rfl, h⟩)
      · exact ⟨0, rfl, rfl⟩
      · exact ⟨j + 1, by omega, h⟩
    · rintro ⟨_ | j, rfl, h⟩
      · exact .inl ⟨rfl, by simpa using h.symm⟩
      · exact .inr ⟨j, by omega, h⟩

/-- The addresses of `bytesFrom`. -/
theorem bytesFrom_addr {a x : Nat} {l : List Byte} : (∃ c ∈ bytesFrom a l, c.1 = x) ↔ a ≤ x ∧ x < a + l.length := by
  constructor
  · rintro ⟨⟨y, b⟩, h, rfl⟩
    obtain ⟨j, rfl, hj⟩ := mem_bytesFrom.1 h
    have := (List.getElem?_eq_some_iff.1 hj).1
    exact ⟨Nat.le_add_right _ _, Nat.add_lt_add_left this _⟩
  · rintro ⟨h1, h2⟩
    exact ⟨(x, l[x - a]), mem_bytesFrom.2 ⟨x - a, by omega, List.getElem?_eq_getElem (by omega)⟩, rfl⟩

@[simp] theorem bytesFrom_eq_nil {a : Nat} {l : List Byte} : bytesFrom a l = [] ↔ l = [] := by cases l <;> simp [bytesFrom]

end Sys2Proof.Machine
end

