-- ==== Sys2Proof/Laws/Frames.lean ====
section
/-! SUPPORT. What a step of a wire opcode can change, said once for each operation of the frame engine. -/

namespace Sys2Proof.Machine

/-- The fields that no step of a frame changes. -/
structure Keeps (s t : State) : Prop where
  cfg : t.cfg = s.cfg
  regs : t.regs = s.regs
  fault : t.fault = s.fault
  initDone : t.initDone = s.initDone
  clockHz : t.clockHz = s.clockHz
  lat : t.lat = s.lat
  hostData : t.hostData = s.hostData
  sched : t.env.sched = s.env.sched
  busFree : t.env.busFree = s.env.busFree
  epoch : t.env.epoch = s.env.epoch

theorem Keeps.self (s : State) : Keeps s s := ⟨rfl, rfl, rfl, rfl, rfl, rfl, rfl, rfl, rfl, rfl⟩

theorem Keeps.next {s t u : State} (h : Keeps s t) (k : Keeps t u) : Keeps s u :=
  ⟨k.cfg.trans h.cfg, k.regs.trans h.regs, k.fault.trans h.fault, k.initDone.trans h.initDone, k.clockHz.trans h.clockHz,
    k.lat.trans h.lat, k.hostData.trans h.hostData, k.sched.trans h.sched, k.busFree.trans h.busFree, k.epoch.trans h.epoch⟩

theorem Env.afterXfer_keep (tx : Byte) (e : Env) :
    (e.afterXfer tx).sched = e.sched ∧ (e.afterXfer tx).busFree = e.busFree ∧ (e.afterXfer tx).epoch = e.epoch := by
  unfold Env.afterXfer; split <;> simp

theorem Env.cutShort_keep (c : Config) (range : Memory) (e : Env) :
    (e.cutShort c range).sched = e.sched ∧ (e.cutShort c range).busFree = e.busFree ∧ (e.cutShort c range).epoch = e.epoch := by
  unfold Env.cutShort; split <;> simp

theorem Env.afterNow_keep (e : Env) :
    e.afterNow.sched = e.sched ∧ e.afterNow.busFree = e.busFree ∧ e.afterNow.epoch = e.epoch := by
  unfold Env.afterNow; split <;> simp

theorem keeps_goto (p : Phase) (s : State) : Keeps s (s.goto p) := ⟨rfl, rfl, rfl, rfl, rfl, rfl, rfl, rfl, rfl, rfl⟩
theorem keeps_setCur (c : Cursor) (s : State) : Keeps s (s.setCur c) := ⟨rfl, rfl, rfl, rfl, rfl, rfl, rfl, rfl, rfl, rfl⟩
theorem keeps_bufWrite (i : Nat) (v : Byte) (s : State) : Keeps s (s.bufWrite i v) :=
  ⟨rfl, rfl, rfl, rfl, rfl, rfl, rfl, rfl, rfl, rfl⟩
theorem keeps_emit (e : WireEvent) (s : State) : Keeps s (s.emit e) := ⟨rfl, rfl, rfl, rfl, rfl, rfl, rfl, rfl, rfl, rfl⟩
theorem keeps_csLow (s : State) : Keeps s s.csLow := ⟨rfl, rfl, rfl, rfl, rfl, rfl, rfl, rfl, rfl, rfl⟩
theorem keeps_csHigh (s : State) : Keeps s s.csHigh := ⟨rfl, rfl, rfl, rfl, rfl, rfl, rfl, rfl, rfl, rfl⟩
theorem keeps_csCut (u : FrameUse) (s : State) : Keeps s (s.csCut u) :=
  let h := Env.cutShort_keep s.cfg (s.frameRange u) s.env
  ⟨rfl, rfl, rfl, rfl, rfl, rfl, rfl, h.1, h.2.1, h.2.2⟩
theorem keeps_xfer (tx : Byte) (s : State) : Keeps s (s.xfer tx) :=
  let h := Env.afterXfer_keep tx s.env
  ⟨rfl, rfl, rfl, rfl, rfl, rfl, rfl, h.1, h.2.1, h.2.2⟩

/-- The next state of a frame step that writes no BUF byte. -/
def FrameNext (s t : State) : Prop := Keeps s t ∧ t.buf = s.buf ∧ t.phase ≠ .idle

theorem enterAddr_frame (u : FrameUse) (j : Nat) (s : State) : FrameNext s (s.enterAddr u j) := by
  unfold State.enterAddr
  split
  · exact ⟨keeps_goto _ _, rfl, by simp⟩
  · split
    · exact ⟨(keeps_setCur _ _).next (keeps_goto _ _), rfl, by simp⟩
    · exact ⟨keeps_goto _ _, rfl, by simp⟩

theorem nextData_frame (u : FrameUse) (s : State) : FrameNext s (s.nextData u) :=
  ⟨(keeps_setCur _ _).next (keeps_goto _ _), rfl, by simp [State.nextData]⟩

theorem nextSegment_frame (s : State) : FrameNext s s.nextSegment := by
  unfold State.nextSegment
  refine ⟨(keeps_setCur _ _).next (keeps_goto _ _), rfl, ?_⟩
  simp only [State.goto_phase]
  split
  · simp
  · split <;> simp

theorem afterFrame_frame (u : FrameUse) (s : State) : FrameNext s (s.afterFrame u) := by
  cases u <;> simp only [State.afterFrame]
  case write => exact nextSegment_frame s
  case compare =>
    split
    · exact nextSegment_frame s
    · exact ⟨keeps_goto _ _, rfl, by simp⟩
  case poll r => exact ⟨keeps_goto _ _, rfl, by unfold State.afterPoll; split <;> simp⟩
  all_goals exact ⟨keeps_goto _ _, rfl, by simp⟩

/-- A property of a checked transfer follows from its two outcomes. -/
theorem State.xferChk_elim {P : State → Prop} {u : FrameUse} {tx : Byte} {k : Byte → State → State} {s : State}
    (h1 : s.xferAnswer.ok = true → P (k s.xferAnswer.rx (s.xfer tx)))
    (h2 : s.xferAnswer.ok = false → P ((s.xfer tx).goto (.frame u (.csHigh true)))) : P (s.xferChk u tx k) := by
  rcases State.xferChk_cases u tx k s with ⟨h, e⟩ | ⟨h, e⟩ <;> rw [e]
  · exact h1 h
  · exact h2 h

theorem xferChk_frame {u : FrameUse} {tx : Byte} {k : Byte → State → State} {s : State}
    (h : ∀ rx, FrameNext (s.xfer tx) (k rx (s.xfer tx))) : FrameNext s (s.xferChk u tx k) :=
  State.xferChk_elim (P := FrameNext s) (fun _ => ⟨(keeps_xfer tx s).next (h _).1, (h _).2.1, (h _).2.2⟩)
    fun _ => ⟨(keeps_xfer tx s).next (keeps_goto _ _), rfl, by simp⟩

/-- The one BUF byte a frame step may write: the one a READ_BLOCK receives (42_read.md R221). -/
def BufNext (s t : State) : Prop :=
  t.buf = s.buf ∨ (s.phase = .frame .read .data ∧ isByteCommand s.command = false ∧ s.xferAnswer.ok = true ∧
    t.buf = s.buf.set s.cur.i s.xferAnswer.rx)

theorem frameStep_keeps {op : Byte} {data : FrameUse → State → Res} {s t : State} (h : frameStep op data s = .next t)
    (hd : ∀ u, s.phase = .frame u .data → data u s = .next t → Keeps s t ∧ t.phase ≠ .idle ∧ BufNext s t) :
    Keeps s t ∧ t.phase ≠ .idle ∧ BufNext s t := by
  obtain ⟨u, pt, hp, hop, h⟩ := frameStep_next h
  have fin : ∀ {t}, FrameNext s t → Keeps s t ∧ t.phase ≠ .idle ∧ BufNext s t := fun ⟨a, b, c⟩ => ⟨a, c, .inl b⟩
  rcases h with ⟨rfl, rfl⟩ | ⟨rfl, -, rfl⟩ | ⟨rfl, -, rfl⟩ | ⟨rfl, rfl⟩ | ⟨j, b', rfl, hb, rfl⟩ | ⟨rfl, hd'⟩ | ⟨rfl, rfl⟩ |
    ⟨rfl, rfl⟩ | ⟨rfl, rfl⟩ | ⟨rfl, rfl⟩
  · exact fin ⟨(keeps_csLow s).next (keeps_goto _ _), rfl, by simp [State.openFrame]⟩
  · exact fin ⟨(keeps_emit _ s).next (keeps_goto _ _), rfl, by simp⟩
  · exact fin ⟨Keeps.self _, rfl, by simp [hp]⟩
  · exact fin (xferChk_frame fun _ => enterAddr_frame _ _ _)
  · exact fin (xferChk_frame fun _ => enterAddr_frame _ _ _)
  · exact hd u hp hd'
  · exact fin ⟨(keeps_csHigh s).next (keeps_goto _ _), rfl, by simp⟩
  · exact fin ⟨(keeps_csCut u s).next (keeps_goto _ _), rfl, by simp⟩
  · obtain ⟨a, b, c⟩ := afterFrame_frame u s.txnEnd
    exact fin ⟨(keeps_emit _ s).next a, b, c⟩
  · exact fin ⟨(keeps_emit _ s).next (keeps_goto _ _), rfl, by simp⟩

theorem readData_keeps {u : FrameUse} {s t : State} (hp : s.phase = .frame u .data) (h : readData u s = .next t) :
    Keeps s t ∧ t.phase ≠ .idle ∧ BufNext s t := by
  rcases readData_next h with ⟨rfl, hpl, rfl⟩ | ⟨rfl, new, hn, rfl⟩
  · apply State.xferChk_elim (P := fun t => Keeps s t ∧ t.phase ≠ .idle ∧ BufNext s t)
    · intro ho
      unfold State.keepByte
      rw [show (s.xfer s.cfg.dummyTx).command = s.command from rfl]
      cases hb : isByteCommand s.command
      · obtain ⟨a, b, c⟩ := nextData_frame .read
          ((s.xfer s.cfg.dummyTx).bufWrite (s.xfer s.cfg.dummyTx).cur.i s.xferAnswer.rx)
        exact ⟨(keeps_xfer _ s).next ((keeps_bufWrite _ _ _).next a), c, .inr ⟨hp, hb, ho, b⟩⟩
      · obtain ⟨a, b, c⟩ := nextData_frame .read
          ((s.xfer s.cfg.dummyTx).setCur { (s.xfer s.cfg.dummyTx).cur with d := s.xferAnswer.rx })
        exact ⟨(keeps_xfer _ s).next ((keeps_setCur _ _).next a), c, .inl b⟩
    · intro _
      exact ⟨(keeps_xfer _ s).next (keeps_goto _ _), by simp, .inl rfl⟩
  · have : FrameNext s (s.xferChk .compare s.cfg.dummyTx fun rx t => t.compareByte .compare new rx) :=
      xferChk_frame fun rx => by
        unfold State.compareByte
        split
        · exact nextData_frame _ _
        · exact ⟨(keeps_setCur _ _).next (keeps_goto _ _), rfl, by simp⟩
    exact ⟨this.1, this.2.2, .inl this.2.1⟩

theorem writeData_frame {u : FrameUse} {s t : State} (h : writeData u s = .next t) : FrameNext s t := by
  obtain ⟨b, _, rfl⟩ := writeData_next h
  exact xferChk_frame fun _ => nextData_frame _ _

theorem statusData_frame {u : FrameUse} {s t : State} (h : statusData u s = .next t) : FrameNext s t := by
  obtain rfl := statusData_next h
  exact xferChk_frame fun _ => ⟨(keeps_setCur _ _).next (keeps_goto _ _), rfl, by simp⟩

/-- Everything a wire opcode may change: the line, the phase, the cursor, the trace, the environment's answers, and one BUF byte. -/
theorem wire_next {i : Instr} {s t : State} (hs : i.space = .wire) (h : exec i s = .next t) :
    Keeps s t ∧ t.phase ≠ .idle ∧ BufNext s t := by
  have fin : ∀ {t}, FrameNext s t → Keeps s t ∧ t.phase ≠ .idle ∧ BufNext s t := fun ⟨a, b, c⟩ => ⟨a, c, .inl b⟩
  cases i <;> simp only [Instr.space, reduceCtorEq] at hs
  · exact frameStep_keeps h fun _ => readData_keeps
  · exact frameStep_keeps h fun _ => readData_keeps
  · exact frameStep_keeps h fun _ _ h => fin (writeData_frame h)
  · exact frameStep_keeps h fun _ _ h => fin (writeData_frame h)
  · exact frameStep_keeps h fun _ _ h => fin (statusData_frame h)
  · exact frameStep_keeps h fun _ _ h => absurd h noData_not_next
  · exact frameStep_keeps h fun _ _ h => absurd h noData_not_next
  · simp [exec, execWireWrsr] at h

/-- The opcode of a frame tells which frames it can be (30_encoding.md R120). -/
theorem frameOp_use {c : Config} {a : Nat} {u : FrameUse} {j : Instr} (h : decodeWire (wireOp c u.baseOp a) = some j) :
    (j = .wireWrite ∨ j = .wireWriteA8 → u = .write) ∧ (j = .wireRdsr → u = .status ∨ ∃ r, u = .poll r) ∧
      (j = .wireRead ∨ j = .wireReadA8 → u = .read ∨ u = .compare) := by
  have hops : wireOp c u.baseOp a = u.baseOp ∨
      wireOp c u.baseOp a = u.baseOp ||| 0x08 ∧ (u.baseOp = opREAD ∨ u.baseOp = opWRITE) := by
    unfold wireOp
    split
    · rename_i h; exact .inr ⟨rfl, h.2.1⟩
    · exact .inl rfl
  rcases hops with h' | ⟨h', h''⟩ <;> rw [h'] at h <;> clear h' <;> cases u <;>
    simp [FrameUse.baseOp, decodeWire, opRDSR, opWREN, opWRDI, opREAD, opWRITE] at * <;> subst h <;> simp

end Sys2Proof.Machine
end

