-- ==== Sys2Proof/Laws/Faults.lean ====
section
/-! SUPPORT. The causes an instruction can record, each with its reason (spec/60_exceptions.md R308, R310). -/

namespace Sys2Proof.Machine

/-- The commands that use BUF (60_exceptions.md R310). -/
abbrev bufCommands : List Instr := [.readBlock, .writeBlock, .writePage, .updateBlock, .updatePage]

/-- The commands without `RequireInit` (60_exceptions.md R308). -/
abbrev initFree : List Instr := [.init, .deinit, .getCapacity, .getPageSize]

/-- What a step of `i` does to the fault record: nothing, or at its checks NOT_INIT of a bus command, or BUF_RANGE of a command
that uses BUF. -/
def Records (i : Instr) (s t : State) : Prop :=
  t.fault = s.fault ∨ s.phase = .check ∧
    ((s.initDone = false ∧ i ∉ initFree ∧ i.space = .host ∧ t.fault = (s.recordFault .notInit).fault) ∨
      (s.initDone = true ∧ s.cfg.bufBytes < s.cLen ∧ i ∈ bufCommands ∧ t.fault = (s.recordFault .bufRange).fault))

/-- What the checks after `RequireInit` do to the fault record. -/
def RecordsRange (i : Instr) (s t : State) : Prop :=
  t.fault = s.fault ∨ s.cfg.bufBytes < s.cLen ∧ i ∈ bufCommands ∧ t.fault = (s.recordFault .bufRange).fault

theorem requireInit_records {i : Instr} {s : State} {k : State → State} (hi : i ∉ initFree ∧ i.space = .host)
    (hp : s.phase = .check) (h : RecordsRange i s (k s)) : Records i s (s.requireInit k) := by
  unfold State.requireInit; split
  · exact h.imp_right fun h => ⟨hp, .inr ⟨‹_›, h⟩⟩
  · exact .inr ⟨hp, .inl ⟨by simp_all, hi.1, hi.2, rfl⟩⟩

theorem requireThat_records {i : Instr} {s : State} {b : Bool} {k : State → State} (h : RecordsRange i s (k s)) :
    RecordsRange i s (s.requireThat b k) := by
  unfold State.requireThat; split
  · exact h
  · exact .inl rfl

theorem requireBuf_records {i : Instr} {s : State} {k : State → State} (hi : i ∈ bufCommands) (h : (k s).fault = s.fault) :
    RecordsRange i s (s.requireBuf k) := by
  unfold State.requireBuf; split
  · exact .inr ⟨‹_›, hi, rfl⟩
  · exact .inl h

theorem unlessEmpty_fault {s : State} {k : State → State} (h : (k s).fault = s.fault) : (s.unlessEmpty k).fault = s.fault := by
  unfold State.unlessEmpty; split
  · rfl
  · exact h

theorem beginSegments_fault (a len n : Nat) (s : State) : (s.beginSegments a len n).fault = s.fault := by
  unfold State.beginSegments; dsimp only; split <;> rfl

theorem runWaiting_records {i : Instr} {body done : State → State} {s t : State} (h : runWaiting body done s = .next t)
    (hd : (done s).fault = s.fault) (hb : s.phase = .check → Records i s (body s)) : Records i s t := by
  rcases runWaiting_next h with ⟨hq, rfl⟩ | ⟨r, hq, rfl⟩ | ⟨r, hq, rfl⟩ | ⟨r, hq, rfl⟩ | ⟨hq, rfl⟩ | ⟨c, hq, rfl⟩
  · exact hb hq
  · exact .inl rfl
  · exact .inl rfl
  · exact .inl rfl
  · exact .inl hd
  · exact .inl rfl

theorem runFrames_records {i : Instr} {body done : State → State} {s t : State} (h : runFrames body done s = .next t)
    (hd : (done s).fault = s.fault) (hb : s.phase = .check → Records i s (body s)) : Records i s t := by
  rcases runFrames_next h with ⟨hq, rfl⟩ | ⟨hq, rfl⟩ | ⟨c, hq, rfl⟩
  · exact hb hq
  · exact .inl hd
  · exact .inl rfl

/-- Every instruction's fault record. -/
theorem exec_records {i : Instr} {s t : State} (h : exec i s = .next t) : Records i s t := by
  cases hs : i.space with
  | wire => exact .inl (wire_next hs h).1.fault
  | host =>
    cases i <;> simp only [Instr.space, reduceCtorEq] at hs <;>
      simp only [exec, execInit, execDeinit, execGetCapacity, execGetPageSize, execReadStatus, execIsReady, execWriteEnable,
        execWriteDisable, execReadByte, execReadBlock, execWriteByte, execWriteBlock, execWritePage, execUpdateByte,
        execUpdateBlock, execUpdatePage] at h
    case init => rcases runPin_next h with ⟨-, rfl⟩ | ⟨-, rfl⟩ <;> exact .inl rfl
    case deinit => rcases runPin_next h with ⟨-, rfl⟩ | ⟨-, rfl⟩ <;> exact .inl rfl
    case getCapacity => obtain ⟨-, rfl⟩ := runAtOnce_next h; exact .inl rfl
    case getPageSize => obtain ⟨-, rfl⟩ := runAtOnce_next h; exact .inl rfl
    case readStatus => exact runFrames_records h rfl fun hp => requireInit_records (by simp [Instr.space]) hp (.inl rfl)
    case isReady => exact runFrames_records h rfl fun hp => requireInit_records (by simp [Instr.space]) hp (.inl rfl)
    case writeEnable => exact runFrames_records h rfl fun hp => requireInit_records (by simp [Instr.space]) hp (.inl rfl)
    case writeDisable => exact runFrames_records h rfl fun hp => requireInit_records (by simp [Instr.space]) hp (.inl rfl)
    case readByte =>
      exact runWaiting_records h rfl fun hp => requireInit_records (by simp [Instr.space]) hp (requireThat_records (.inl rfl))
    case readBlock =>
      exact runWaiting_records h rfl fun hp => requireInit_records (by simp [Instr.space]) hp
        (requireThat_records (requireBuf_records (by simp) (unlessEmpty_fault rfl)))
    case writeByte =>
      exact runWaiting_records h rfl fun hp => requireInit_records (by simp [Instr.space]) hp
        (requireThat_records (.inl (beginSegments_fault ..)))
    case updateByte =>
      exact runWaiting_records h rfl fun hp => requireInit_records (by simp [Instr.space]) hp
        (requireThat_records (.inl (beginSegments_fault ..)))
    all_goals
      exact runWaiting_records h rfl fun hp => requireInit_records (by simp [Instr.space]) hp
        (requireThat_records (requireBuf_records (by simp) (unlessEmpty_fault (beginSegments_fault ..))))

end Sys2Proof.Machine
end

