-- ==== Sys2Proof/Laws/Step.lean ====
section
/-! SUPPORT. What a host access, an instruction and a step of the machine can do, said once. -/

namespace Sys2Proof.Machine

/-! ### Host accesses -/

theorem busy_false {s : State} : s.busy = false ↔ s.phase = .idle := by
  unfold State.busy; split <;> simp_all

/-- The lanes of a value hold the value (20_memory.md R84). -/
theorem wordOfLanes_lanesOf (v : Word) : wordOfLanes (lanesOf v) = v := by
  apply BitVec.eq_of_getLsbD_eq
  intro k hk
  simp only [wordOfLanes, lanesOf, laneAt, List.getD_cons_succ, List.getD_cons_zero, BitVec.getLsbD_append,
    BitVec.getLsbD_extractLsb']
  rcases Nat.lt_or_ge k 8 with h | h
  · simp [h]
  · rcases Nat.lt_or_ge k 16 with h' | h'
    · simp [show ¬ k < 8 by omega, show k - 8 < 8 by omega]; congr 1; omega
    · rcases Nat.lt_or_ge k 24 with h'' | h''
      · simp [show ¬ k < 8 by omega, show ¬ k - 8 < 8 by omega, show k - 8 - 8 < 8 by omega]; congr 1; omega
      · simp [show ¬ k < 8 by omega, show ¬ k - 8 < 8 by omega, show ¬ k - 8 - 8 < 8 by omega, show k - 8 - 8 - 8 < 8 by omega]
        congr 1; omega

theorem hostTarget_reg (c : Config) {off : Nat} (h : off < 0x24) (h' : off % 4 = 0) :
    hostTarget c (c.hostBase + off) 4 = .reg off := by
  unfold hostTarget; simp [h, h']

theorem hostTarget_buf (c : Config) {i : Nat} (h : i < c.bufBytes) :
    hostTarget c (c.hostBase + 0x1000 + i) 1 = .buf i := by
  have e : c.hostBase + 0x1000 + i - c.hostBase = 0x1000 + i := by omega
  unfold hostTarget
  simp only [e]
  rw [if_neg (by omega), if_neg (by omega), if_pos ⟨by omega, by omega, trivial⟩, Nat.add_sub_cancel_left]

/-- A CMD write is a 32-bit write to the first register (10_state.md R33). -/
theorem cmdWrite_lanesOf (c : Config) (v : Word) : cmdWrite c (.write c.hostBase (lanesOf v)) = some v := by
  have h : hostTarget c c.hostBase 4 = .reg 0 := hostTarget_reg c (off := 0) (by omega) rfl
  simp [cmdWrite, show (lanesOf v).length = 4 from rfl, h, wordOfLanes_lanesOf]

/-- A CMD write is a four-lane write at the base of the window, and the code is its first lane. -/
theorem cmdWrite_form {c : Config} {op : HostOp} {v : Word} (h : cmdWrite c op = some v) :
    ∃ x y z, op = .write c.hostBase [v.setWidth 8, x, y, z] := by
  cases op with
  | read => simp [cmdWrite] at h
  | write a l =>
    simp only [cmdWrite] at h
    split at h
    · rename_i ht
      injection h with h
      unfold hostTarget at ht
      split at ht
      · simp at ht
      · dsimp only at ht
        split at ht
        · rename_i hc
          injection ht with ht
          match l, hc.2.2 with
          | [b, x, y, z], _ =>
            have hb : v.setWidth 8 = b := by
              subst h
              apply BitVec.eq_of_getLsbD_eq
              intro k hk
              have := BitVec.getLsbD_append (x := z ++ y ++ x) (y := b) (i := k)
              simp only [BitVec.getLsbD_setWidth, hk, decide_true, Bool.true_and, if_true] at this ⊢
              exact this
            exact ⟨x, y, z, by rw [hb, show a = c.hostBase by omega]⟩
        · split at ht <;> simp at ht
    · simp at h

/-- What a host access other than a CMD write leaves alone. -/
structure HostKeeps (s t : State) : Prop where
  cfg : t.cfg = s.cfg
  trace : t.trace = s.trace
  result : t.regs.result = s.regs.result
  err : t.regs.err = s.regs.err
  rdata : t.regs.rdata = s.regs.rdata
  initDone : t.initDone = s.initDone
  clockHz : t.clockHz = s.clockHz
  cs : t.cs = s.cs
  phase : t.phase = s.phase
  lat : t.lat = s.lat
  cur : t.cur = s.cur
  env : t.env = s.env
  fault : t.fault = s.fault ∨ s.phase ≠ .idle ∧ t.fault = (s.recordFault .busyAccess).fault

theorem not_idle_of_busy {s : State} (h : s.busy = true) : s.phase ≠ .idle := fun hi => by
  rw [busy_false.2 hi] at h; exact Bool.noConfusion h

theorem hostWrite_keeps (a : Nat) (lanes : List Byte) (s : State) : HostKeeps s (s.hostWrite a lanes) := by
  unfold State.hostWrite
  split
  · unfold State.writeReg
    repeat' split
    all_goals exact ⟨rfl, rfl, rfl, rfl, rfl, rfl, rfl, rfl, rfl, rfl, rfl, rfl, .inl rfl⟩
  · split
    · exact ⟨rfl, rfl, rfl, rfl, rfl, rfl, rfl, rfl, rfl, rfl, rfl, rfl, .inr ⟨not_idle_of_busy ‹_›, rfl⟩⟩
    · exact ⟨rfl, rfl, rfl, rfl, rfl, rfl, rfl, rfl, rfl, rfl, rfl, rfl, .inl rfl⟩
  · exact ⟨rfl, rfl, rfl, rfl, rfl, rfl, rfl, rfl, rfl, rfl, rfl, rfl, .inl rfl⟩

theorem hostRead_keeps (a size : Nat) (s : State) : HostKeeps s (s.hostRead a size) := by
  unfold State.hostRead
  dsimp only
  split
  · split
    · exact ⟨rfl, rfl, rfl, rfl, rfl, rfl, rfl, rfl, rfl, rfl, rfl, rfl, .inr ⟨not_idle_of_busy ‹_›, rfl⟩⟩
    · exact ⟨rfl, rfl, rfl, rfl, rfl, rfl, rfl, rfl, rfl, rfl, rfl, rfl, .inl rfl⟩
  all_goals exact ⟨rfl, rfl, rfl, rfl, rfl, rfl, rfl, rfl, rfl, rfl, rfl, rfl, .inl rfl⟩

/-! ### Instructions -/

/-- What every instruction does to the registers the host sees (for the fault record, `exec_records`). -/
structure ExecEffect (i : Instr) (s t : State) : Prop where
  cfg : t.cfg = s.cfg
  lat : t.lat = s.lat
  initClock : t.initDone ≠ s.initDone ∨ t.clockHz ≠ s.clockHz → i = .init ∨ i = .deinit ∧ t.clockHz = s.clockHz
  running : t.phase ≠ .idle → t.regs = s.regs
  failed : t.phase = .idle → t.regs.err ≠ .none → t.regs.result = 0
  rdata : t.regs.rdata ≠ s.regs.rdata →
    (i = .readByte ∨ i = .readStatus ∨ i = .isReady) ∧ s.phase = .complete ∧ t.regs.err = .none

theorem exec_next {i : Instr} {s t : State} (h : exec i s = .next t) : ExecEffect i s t := by
  cases hs : i.space with
  | wire =>
    obtain ⟨a, b, -⟩ := wire_next hs h
    exact ⟨a.cfg, a.lat, by simp [a.initDone, a.clockHz], fun _ => a.regs, fun h => absurd h b, by simp [a.regs]⟩
  | host =>
    cases command_next hs h with
    | check hq hc =>
      cases hc with
      | notInit h' => constructor <;> simp [State.raiseErr, State.raiseFault, State.recordFault]
      | bufRange h' => constructor <;> simp [State.raiseErr, State.raiseFault, State.recordFault]
      | _ => constructor <;> simp [State.raiseErr, State.succeed, State.openFrame, State.startWait]
    | initPin h' => constructor <;> simp [h']
    | initEnd h' => constructor <;> simp [h', State.succeed]
    | deinitEnd h' => constructor <;> simp [h', State.succeed]
    | pollT r => constructor <;> simp [State.pollTime]; split <;> simp
    | completeRdata v n h1 h2 => constructor <;> simp [State.succeed, State.setRdata, h1, h2]
    | _ => constructor <;> simp [State.raiseErr, State.succeed, State.startWait, State.pollYield]

/-! ### Steps -/

/-- The state the sequencer steps from: the schedule's `seq` entry, if there is one, is taken off. -/
def Moves (s q : State) : Prop := q = s ∨ ∃ r, s.env.sched = .seq :: r ∧ q = s.setSched r

/-- Everything a step can do, by who moves. -/
inductive StepCase (s : State) : State → Prop
  | idle (q : State) : Moves s q → s.phase = .idle → StepCase s q
  | run (q : State) (i : Instr) {t : State} : Moves s q → s.phase ≠ .idle → fetch q = some i → exec i q = .next t → StepCase s t
  | start (r : List Event) (op : HostOp) (v : Word) (i : Instr) {t : State} : s.env.sched = .host op :: r →
      cmdWrite s.cfg op = some v → s.phase = .idle → hostInstr s.cfg (v.setWidth 8) = some i →
      exec i ((s.setSched r).start v) = .next t → StepCase s t
  | illegal (r : List Event) (op : HostOp) (v : Word) : s.env.sched = .host op :: r → cmdWrite s.cfg op = some v →
      s.phase = .idle → hostInstr s.cfg (v.setWidth 8) = none →
      StepCase s (((s.setSched r).start v).raiseFault .illegalCmd)
  | busyCmd (r : List Event) (op : HostOp) : s.env.sched = .host op :: r → s.phase ≠ .idle →
      StepCase s ((s.setSched r).recordFault .busyAccess)
  | write (r : List Event) (a : Nat) (lanes : List Byte) : s.env.sched = .host (.write a lanes) :: r →
      StepCase s ((s.setSched r).hostWrite a lanes)
  | read (r : List Event) (a n : Nat) : s.env.sched = .host (.read a n) :: r → StepCase s ((s.setSched r).hostRead a n)
  | readStatus (r : List Event) : s.env.sched = .waitIdle :: r → s.phase = .idle →
      StepCase s ((s.setSched r).hostRead (s.cfg.hostBase + 0x1C) 4)
  | bus (r : List Event) (g : Bool) : s.env.sched = .bus g :: r → StepCase s ((s.setSched r).setBus g)
  | reset (r : List Event) : s.env.sched = .reset :: r → StepCase s (s.setSched r).warmReset

theorem seqStep_next {q t : State} (h : seqStep q = .next t) :
    (q.phase = .idle ∧ t = q) ∨ (q.phase ≠ .idle ∧ ∃ i, fetch q = some i ∧ exec i q = .next t) := by
  unfold seqStep at h
  split at h
  · simp_all
  all_goals
    split at h
    · exact .inr ⟨by simp_all, _, by assumption, h⟩
    · simp at h

/-- Every step is one of `StepCase`, on a valid configuration. -/
theorem step_next {s t : State} (h : step s = .next t) : s.cfg.valid = true ∧ StepCase s t := by
  unfold step at h
  split at h
  · rename_i hv
    refine ⟨hv, ?_⟩
    have hseq : ∀ q, Moves s q → seqStep q = .next t → StepCase s t := by
      intro q hq h
      have hp : q.phase = s.phase := by rcases hq with rfl | ⟨r, _, rfl⟩ <;> rfl
      rcases seqStep_next h with ⟨h1, rfl⟩ | ⟨h1, i, h2, h3⟩
      · exact .idle _ hq (hp ▸ h1)
      · exact .run q i hq (hp ▸ h1) h2 h3
    split at h
    · exact hseq s (.inl rfl) h
    · rename_i r hr; exact hseq _ (.inr ⟨r, hr, rfl⟩) h
    · rename_i r hr
      split at h
      · exact hseq s (.inl rfl) h
      · injection h with h; subst h
        exact .readStatus r hr (busy_false.1 (by simp_all))
    · rename_i op r hr
      unfold hostStep at h
      rw [show (s.setSched r).cfg = s.cfg from rfl] at h
      cases hc : cmdWrite s.cfg op with
      | some v =>
        rw [hc] at h
        simp only [cmdStep] at h
        split at h
        · injection h with h; subst h
          exact .busyCmd r _ hr (not_idle_of_busy (s := s.setSched r) ‹_›)
        · have hb : (s.setSched r).busy = false := by simp_all
          have hi : s.phase = .idle := busy_false.1 hb
          split at h
          · rename_i i hi'; exact .start r op v i hr hc hi hi' h
          · rename_i hi'; injection h with h; subst h; exact .illegal r op v hr hc hi hi'
      | none =>
        rw [hc] at h
        cases op with
        | write a lanes => injection h with h; subst h; exact .write r a lanes hr
        | read a n => injection h with h; subst h; exact .read r a n hr
    · rename_i g r hr; injection h with h; subst h; exact .bus r g hr
    · rename_i r hr; injection h with h; subst h; exact .reset r hr
  · simp at h

theorem hostInstr_decodes {c : Config} {code : Byte} {i : Instr} (h : hostInstr c code = some i) :
    decodeHost code = some i ∧ i.wellFormed c = true := by
  unfold hostInstr at h
  split at h
  · split at h <;> simp_all
  · simp at h

/-- A host command is fetched outside a frame, by the latched code. -/
theorem fetch_host {q : State} {i : Instr} (h : fetch q = some i) (hs : i.space = .host) :
    (∀ u pt, q.phase ≠ .frame u pt) ∧ hostInstr q.cfg q.lat.code = some i := by
  unfold fetch at h
  split at h
  · simp at h
  · rw [(decodeWire_encode h).1] at hs; simp at hs
  all_goals exact ⟨by simp_all, h⟩

end Sys2Proof.Machine
end

