-- ==== Sys2Proof/Laws/PerInstr.lean ====
section
/-! SUPPORT. Facts about each instruction as syntax, one lemma per constructor. -/

namespace Sys2Proof.Laws.Fetch

open Sys2Proof Sys2Proof.Machine

/-- An instruction's byte leads to it in its own encoding space: a host command's code is legal exactly where the
configuration has the command (30_encoding.md R140, R142), and the opcode of a frame is fetched as the wire opcode it names
(R120). -/
def Statement (i : Instr) : Prop :=
  (i.space = .host → ∀ c, hostInstr c (encode i) = if i.wellFormed c then some i else none) ∧
  (i.space = .wire → ∀ s u pt, s.phase = .frame u pt → s.frameOp u = encode i → fetch s = some i)

/-- The host half, from the decoder. -/
theorem of_host {i : Instr} (hs : i.space = .host) (hd : decodeHost (encode i) = some i) : Statement i :=
  ⟨fun _ c => by simp [hostInstr, hd], fun h => by simp [hs] at h⟩

/-- The wire half, from the decoder. -/
theorem of_wire {i : Instr} (hs : i.space = .wire) (hd : decodeWire (encode i) = some i) : Statement i :=
  ⟨fun h => by simp [hs] at h, fun _ s u pt hp ho => by simp [fetch, hp, ho, hd]⟩

theorem init : Statement .init := of_host rfl rfl
theorem deinit : Statement .deinit := of_host rfl rfl
theorem getCapacity : Statement .getCapacity := of_host rfl rfl
theorem getPageSize : Statement .getPageSize := of_host rfl rfl
theorem readStatus : Statement .readStatus := of_host rfl rfl
theorem isReady : Statement .isReady := of_host rfl rfl
theorem writeEnable : Statement .writeEnable := of_host rfl rfl
theorem writeDisable : Statement .writeDisable := of_host rfl rfl
theorem readByte : Statement .readByte := of_host rfl rfl
theorem readBlock : Statement .readBlock := of_host rfl rfl
theorem writeByte : Statement .writeByte := of_host rfl rfl
theorem writeBlock : Statement .writeBlock := of_host rfl rfl
theorem writePage : Statement .writePage := of_host rfl rfl
theorem updateByte : Statement .updateByte := of_host rfl rfl
theorem updateBlock : Statement .updateBlock := of_host rfl rfl
theorem updatePage : Statement .updatePage := of_host rfl rfl
theorem wireRead : Statement .wireRead := of_wire rfl rfl
theorem wireReadA8 : Statement .wireReadA8 := of_wire rfl rfl
theorem wireWrite : Statement .wireWrite := of_wire rfl rfl
theorem wireWriteA8 : Statement .wireWriteA8 := of_wire rfl rfl
theorem wireRdsr : Statement .wireRdsr := of_wire rfl rfl
theorem wireWren : Statement .wireWren := of_wire rfl rfl
theorem wireWrdi : Statement .wireWrdi := of_wire rfl rfl
theorem wireWrsr : Statement .wireWrsr := of_wire rfl rfl

end Sys2Proof.Laws.Fetch
end

