-- ==== Sys2Proof/Laws/Responder.lean ====
section
/-! SUPPORT. What a cut-short frame, an abandoned command and an answer over an attached responder do, said once. -/

namespace Sys2Proof.Machine

/-! ### Unspecified ranges -/

/-- An entry of an unspecified range is an address of the range with its old or its new byte. -/
theorem mem_mixed {n x : Nat} {old : Nat → Byte} {l : Memory} {b : Byte} (h : (x, b) ∈ mixed n old l) :
    ∃ v, (x, v) ∈ l ∧ (b = v ∨ b = old x) := by
  induction l with
  | nil => simp [mixed] at h
  | cons c l ih =>
    simp only [mixed, List.mem_cons, Prod.mk.injEq] at h
    rcases h with ⟨rfl, rfl⟩ | h
    · exact ⟨c.2, by simp, by split <;> simp⟩
    · obtain ⟨v, hv, hb⟩ := ih h
      exact ⟨v, by simp [hv], hb⟩

theorem mixed_addrs {n x : Nat} {old : Nat → Byte} {l : Memory} : (∃ c ∈ mixed n old l, c.1 = x) ↔ ∃ c ∈ l, c.1 = x := by
  induction l with
  | nil => simp [mixed]
  | cons c l ih => simp only [mixed, List.exists_mem_cons_iff, ih]

/-- A byte of an array with an unspecified range stored over it. -/
theorem arrayByte_mixed {m l : Memory} {n : Nat} {old : Nat → Byte} (x : Nat) :
    ((∀ c ∈ l, c.1 ≠ x) ∧ arrayByte (m.setAll (mixed n old l)) x = arrayByte m x) ∨
      ∃ v, (x, v) ∈ l ∧ (arrayByte (m.setAll (mixed n old l)) x = v ∨ arrayByte (m.setAll (mixed n old l)) x = old x) := by
  by_cases h : ∃ c ∈ l, c.1 = x
  · obtain ⟨b, hb, e⟩ := Memory.get?_setAll_mem (m := m) (mixed_addrs (n := n) (old := old).2 h)
    obtain ⟨v, hv, hb⟩ := mem_mixed hb
    exact .inr ⟨v, hv, by simpa [arrayByte, e] using hb⟩
  · refine .inl ⟨fun c hc e => h ⟨c, hc, e⟩, ?_⟩
    unfold arrayByte
    rw [Memory.get?_setAll_ne fun c hc e => h (mixed_addrs.1 ⟨c, hc, e⟩)]

/-! ### The environment -/

@[simp] theorem Env.keepBefore_sched (e : Env) : e.keepBefore.sched = e.sched := by unfold Env.keepBefore; split <;> rfl
@[simp] theorem Env.keepBefore_busFree (e : Env) : e.keepBefore.busFree = e.busFree := by unfold Env.keepBefore; split <;> rfl
@[simp] theorem Env.keepBefore_answers (e : Env) : e.keepBefore.answers = e.answers := by unfold Env.keepBefore; split <;> rfl
@[simp] theorem Env.keepBefore_times (e : Env) : e.keepBefore.times = e.times := by unfold Env.keepBefore; split <;> rfl
@[simp] theorem Env.keepBefore_chip (e : Env) : e.keepBefore.chip = e.chip := by unfold Env.keepBefore; split <;> rfl
@[simp] theorem Env.keepBefore_draws (e : Env) : e.keepBefore.draws = e.draws := by unfold Env.keepBefore; split <;> rfl
@[simp] theorem Env.keepBefore_epoch (e : Env) : e.keepBefore.epoch = e.epoch := by unfold Env.keepBefore; split <;> rfl

/-- With no responder attached there is nothing to keep, to cut short or to abandon. -/
theorem Env.noChip {e : Env} (h : e.chip = none) (c : Config) (range : Memory) :
    e.keepBefore = e ∧ e.cutShort c range = e ∧ e.abandon range = e := by
  simp [Env.keepBefore, Env.cutShort, Env.abandon, h]

/-- A cut-short frame and an abandoned command change the responder and count a draw. -/
theorem Env.cutShort_chip {e : Env} {r : Responder} (h : e.chip = some r) (c : Config) (range : Memory) :
    e.cutShort c range = { e with chip := some (r.onCutShort c e.draws range), draws := e.draws + 1 } := by
  simp [Env.cutShort, h]

theorem Env.abandon_chip {e : Env} {r : Responder} (h : e.chip = some r) (range : Memory) :
    e.abandon range = { e with chip := some (r.abandoned e.draws e.before range), draws := e.draws + 1 } := by
  simp [Env.abandon, h]

/-! ### Answers -/

/-- Over an attached responder a transfer fails exactly where the environment says so (20_memory.md R108), and a good
transfer's byte is the responder's. -/
theorem State.xferAnswer_chip {s : State} {r : Responder} (h : s.env.chip = some r) :
    (s.xferAnswer.ok = false ↔ ∃ a l, s.env.answers = a :: l ∧ a.ok = false ∧ s.cfg.xferMayFail = true) ∧
      (s.xferAnswer.ok = true → s.xferAnswer.rx = r.answer s.cfg) := by
  cases ha : s.env.answers with
  | nil => simp [State.xferAnswer, h, ha]
  | cons a l =>
    simp only [State.xferAnswer, h, ha]
    cases h1 : a.ok <;> cases h2 : s.cfg.xferMayFail <;> simp_all

/-- With no responder attached the next ready answer is the answer. -/
theorem State.xferAnswer_ready {s : State} {a : Answer} {l : List Answer} (h : s.env.chip = none) (ha : s.env.answers = a :: l) :
    s.xferAnswer = ⟨a.rx, a.ok || !s.cfg.xferMayFail⟩ ∧ ∀ tx, s.env.afterXfer tx = { s.env with answers := l } := by
  simp [State.xferAnswer, Env.afterXfer, h, ha]

end Sys2Proof.Machine
end

