-- ==== Sys2Proof/Tests/Slice0.lean ====
section
/-! SUPPORT. Tests, with expected values from spec/, and for every obligation with hypotheses a witness that meets them. -/

namespace Sys2Proof.Tests

open Sys2Proof Sys2Proof.Machine

/-! ### Small states -/

/-- A NINE_BIT profile (95_test_vectors.md 2.1). -/
def nine : Config := { Config.standard with cap := 512, page := 16 }

/-- An initialised idle block with a schedule, and with transport answers and time readings ready. -/
def ready (c : Config) (sched : List Event) (as : List Answer) (ts : List Word) : State :=
  { State.afterReset c { Env.quiet with sched := sched, answers := as, times := ts } with
    initDone := true, cs := .high, clockHz := 1000 }

/-- The same with the holding registers written. -/
def holding (a n : Word) (s : State) : State := { s with regs := { s.regs with addr := a, len := n, wdata := 0x5A } }

/-- A running command at a phase, with its latched operands. -/
def running (c : Config) (i : Instr) (a n : Word) (p : Phase) (as : List Answer) (ts : List Word) : State :=
  { ready c [] as ts with phase := p, lat := { code := encode i, addr := a, len := n, data := 0x5A, clk := 0 } }

/-- A write or update command in a segment. -/
def inSegment (c : Config) (i : Instr) (a n k j : Nat) (p : Phase) (as : List Answer) : State :=
  { running c i (BitVec.ofNat 32 a) (BitVec.ofNat 32 n) p as [] with
    cur := { segAddr := a, segLen := n, off := 0, rem := n, k := k, i := j, waitStart := 0, sr := 0, d := 0 } }

/-- The next state of an outcome. -/
def nextOf : Res → Option State
  | .next t => some t
  | .fault _ => none
  | .refused _ => none

/-- A field of the next state. -/
def fieldOf {α : Type} (f : State → α) (r : Res) : Option α := (nextOf r).map f

/-- The CMD write of a code. -/
def cmd (c : Config) (code : Word) : Event := .host (.write c.hostBase (lanesOf code))

/-- A transport answer with ok = true. -/
def good (b : Byte) : Answer := ⟨b, true⟩

/-- A transport failure. -/
def bad : Answer := ⟨0, false⟩

/-! ### Decoding: words written out from 30_encoding.md R120 and R140 -/

theorem test_decode_host :
    [0b00000001#8, 0b00000010#8, 0b00000011#8, 0b00000100#8, 0b00010000#8, 0b00010001#8, 0b00010010#8, 0b00010011#8,
      0b00100000#8, 0b00100001#8, 0b00110000#8, 0b00110001#8, 0b00110010#8, 0b01000000#8, 0b01000001#8, 0b01000010#8].map
      decodeHost =
    [some .init, some .deinit, some .getCapacity, some .getPageSize, some .readStatus, some .isReady, some .writeEnable,
      some .writeDisable, some .readByte, some .readBlock, some .writeByte, some .writeBlock, some .writePage,
      some .updateByte, some .updateBlock, some .updatePage] := by decide

theorem test_decode_wire :
    [0b00000011#8, 0b00001011#8, 0b00000010#8, 0b00001010#8, 0b00000101#8, 0b00000110#8, 0b00000100#8, 0b00000001#8].map
      decodeWire =
    [some .wireRead, some .wireReadA8, some .wireWrite, some .wireWriteA8, some .wireRdsr, some .wireWren, some .wireWrdi,
      some .wireWrsr] := by decide

/-- R142: the ends of the illegal ranges. -/
theorem test_decode_host_illegal :
    ([0x00#8, 0x05#8, 0x0F#8, 0x14#8, 0x1F#8, 0x22#8, 0x2F#8, 0x33#8, 0x3F#8, 0x43#8, 0xFF#8].all
      fun w => (decodeHost w).isNone) = true := by decide

/-- R132: opcodes that no frame has. -/
theorem test_decode_wire_reserved :
    ([0x00#8, 0x07#8, 0x08#8, 0x09#8, 0x0C#8, 0x9F#8, 0xFF#8].all fun w => (decodeWire w).isNone) = true := by decide

/-- The table's numbering: a host code, then a byte that only the wire table has. -/
theorem test_decodeTableWord :
    decodeTableWord 8 0x42 = some .updatePage ∧ decodeTableWord 8 0x03 = some .getCapacity ∧
    decodeTableWord 8 0x0B = some .wireReadA8 ∧ decodeTableWord 8 0x06 = some .wireWren ∧
    decodeTableWord 8 0x7F = none := by decide

/-! ### Well-formedness: an ill-formed term for each check -/

theorem test_wf_standard : Config.standard.valid = true ∧ nine.valid = true := by decide
theorem test_wf_cap_zero : { Config.standard with cap := 0, page := 1 }.valid = false := by decide
theorem test_wf_cap_large : { Config.standard with cap := 2 ^ 24 + 64 }.valid = false := by decide
theorem test_wf_page_power : { Config.standard with cap := 96, page := 48 }.valid = false := by decide
theorem test_wf_page_zero : { Config.standard with page := 0 }.valid = false := by decide
theorem test_wf_page_large : { Config.standard with cap := 32, page := 64 }.valid = false := by decide
theorem test_wf_page_divides : { Config.standard with cap := 100, page := 64 }.valid = false := by decide
theorem test_wf_buf : { Config.standard with bufBytes := 0 }.valid = false := by decide
theorem test_wf_clock : { Config.standard with defaultClockHz := 0 }.valid = false := by decide
theorem test_wf_update : Instr.wellFormed { Config.standard with hasUpdate := false } .updateByte = false := by decide
theorem test_wf_a8 : Instr.wellFormed Config.standard .wireReadA8 = false ∧
    Instr.wellFormed Config.standard .wireWriteA8 = false := by decide
theorem test_wf_wrsr : Instr.wellFormed Config.standard .wireWrsr = false := by decide
theorem test_wf_frames : Frame.wellFormed Config.standard (.read 0x7FFF 2) = false ∧
    Frame.wellFormed Config.standard (.read 0 0) = false ∧ Frame.wellFormed Config.standard (.write 60 [1, 2, 3, 4, 5]) = false ∧
    Frame.wellFormed Config.standard (.write 60 []) = false := by decide

/-! ### Addresses and opcodes (95_test_vectors.md 2.1, E6) -/

theorem test_frame_bytes :
    frameBytes nine (.read 0x1A5 1) = [0x0B, 0xA5, 0x00] ∧ frameBytes nine (.write 0x0A5 [0x5A]) = [0x02, 0xA5, 0x5A] ∧
    frameBytes { Config.standard with cap := 1024 } (.read 0x1A5 1) = [0x03, 0x01, 0xA5, 0x00] ∧
    frameBytes { Config.standard with cap := 0x20000 } (.write 0x1ABCD [0x01]) = [0x02, 0x01, 0xAB, 0xCD, 0x01] := by decide

/-- E1: the segments of WRITE_BLOCK 10, 200. -/
theorem test_segments : segments Config.standard 10 200 = [⟨10, 54, 0⟩, ⟨64, 64, 54⟩, ⟨128, 64, 118⟩, ⟨192, 18, 182⟩] := by
  decide

/-- 95_test_vectors.md 2.7: PageCheck. -/
theorem test_pageCheck :
    pageCheck Config.standard 0 64 = true ∧ pageCheck Config.standard 63 2 = false ∧
    pageCheck Config.standard 0x8000 0 = true ∧ pageCheck Config.standard 0xFFFFFFFF 2 = false := by decide

/-- 95_test_vectors.md 2.2: the decoder. -/
theorem test_srDecode :
    [0x00#8, 0x01#8, 0x02#8, 0x0C#8, 0x10#8, 0x20#8, 0x40#8, 0x8C#8, 0xFE#8, 0xFF#8].map (srDecode SrLayout.standard) =
      [0x01, 0x02, 0x05, 0x19, 0x21, 0x01, 0x41, 0x99, 0xFD, 0xFE] := by decide

/-- R50, R85: bits go most significant first. -/
theorem test_wireBits : wireBits .msbFirst 0x03 = [false, false, false, false, false, false, true, true] := by decide

/-! ### One step of each family -/

/-- V-CTL-1: the first step of INIT from reset drives the line high. -/
theorem test_init_pin : fieldOf (fun t => (t.cs, t.trace, t.phase))
    (step { State.reset with env := { Env.quiet with sched := [cmd Config.standard 0x01] } }) =
      some (.high, [.cs true], .pin) := by decide

/-- V-CTL-1: its end. -/
theorem test_init_done : fieldOf (fun t => (t.statusWord, t.regs.result))
    (step (running Config.standard .init 0 0 .pin [] [])) = some (0x2, 1) := by decide

/-- V-CTL-4. -/
theorem test_deinit : fieldOf (fun t => (t.statusWord, t.regs.result, t.clockHz))
    (step (running Config.standard .deinit 0 0 .pin [] [])) = some (0x0, 1, 1000) := by decide

/-- V-CTL-7, V-CTL-8. -/
theorem test_capacity : fieldOf (fun t => (t.regs.result, t.statusWord, t.trace))
    (step { State.reset with env := { Env.quiet with sched := [cmd Config.standard 0x03] } }) = some (0x8000, 0x0, []) := by decide
theorem test_page_size : fieldOf (fun t => (t.regs.result, t.statusWord))
    (step { State.reset with env := { Env.quiet with sched := [cmd Config.standard 0x04] } }) = some (0x40, 0x0) := by decide

/-- V-CTL-6: a bus command before INIT. -/
theorem test_not_init : fieldOf (fun t => (t.statusWord, t.regs.result, t.trace))
    (step { State.reset with env := { Env.quiet with sched := [cmd Config.standard 0x10] } }) = some (0x444, 0, []) := by decide

/-- V-ERR-5: an illegal code, with bits 31:8 ignored. -/
theorem test_illegal : fieldOf (fun t => (t.statusWord, t.regs.result))
    (step (ready Config.standard [cmd Config.standard 0x133] [] [])) = some (0x556, 0) := by decide

/-- V-RD-4, V-RD-5, V-RD-7: range checks. -/
theorem test_read_precondition : fieldOf (fun t => (t.statusWord, t.trace))
    (step (holding 0x7FFF 2 (ready Config.standard [cmd Config.standard 0x21] [] []))) = some (0x12, []) := by decide
theorem test_read_empty : fieldOf (fun t => (t.statusWord, t.regs.result))
    (step (holding 0x8000 0 (ready Config.standard [cmd Config.standard 0x21] [] []))) = some (0x2, 0) := by decide
theorem test_read_buf_range : fieldOf (fun t => t.statusWord)
    (step (holding 0 300 (ready Config.standard [cmd Config.standard 0x21] [] []))) = some 0x666 := by decide

/-- V-WR-12: PRECONDITION comes before BUF_RANGE. -/
theorem test_write_page_order : fieldOf (fun t => t.statusWord)
    (step (holding 60 300 (ready Config.standard [cmd Config.standard 0x32] [] []))) = some 0x12 := by decide

/-- V-WAIT-1: the first reading of a wait. -/
theorem test_wait_start : fieldOf (fun t => (t.trace, t.cur.waitStart))
    (step (holding 0x40 2 (ready Config.standard [cmd Config.standard 0x31] [] [1000]))) = some ([.time 1000], 1000) := by decide

/-- V-WAIT-4: the modular elapsed times 6000 and 6001. -/
theorem test_wait_not_yet :
    let s := running Config.standard .readByte 0 0 (.pollT .read) [] [0x770]
    fieldOf State.phase (step { s with cur := { s.cur with waitStart := 0xFFFFF000 } }) = some (.pollY .read) := by decide
theorem test_wait_timeout :
    let s := running Config.standard .readByte 0 0 (.pollT .read) [] [0x771]
    fieldOf State.phase (step { s with cur := { s.cur with waitStart := 0xFFFFF000 } }) = some (.failing .timeout) := by decide

/-- V-STS-5: 0xFE is ready. -/
theorem test_is_ready :
    let s := running Config.standard .isReady 0 0 .complete [] []
    fieldOf (fun t => (t.regs.result, t.regs.rdata)) (step { s with cur := { s.cur with sr := 0xFE } }) = some (1, 0xFE) := by
  decide

/-- V-RD-12: the opcode of a READ at 0x1A5 on a NINE_BIT device. -/
theorem test_read_a8 : fieldOf (fun t => (t.trace, t.phase))
    (step (running nine .readByte 0x1A5 0 (.frame .read .opcode) [good 0xFF] [])) =
      some ([.xfer 0x0B 0xFF true], .frame .read (.addr 0)) := by decide

/-- V-WR-2: its address byte in a WRITE. -/
theorem test_write_a8 : fieldOf (fun t => (t.trace, t.phase))
    (step (inSegment nine .writeByte 0x1A5 1 0 0 (.frame .write (.addr 0)) [good 0xFF])) =
      some ([.xfer 0xA5 0xFF true], .frame .write .data) := by decide

/-- V-STS-8: a failed opcode closes the frame. -/
theorem test_bus_failure : fieldOf (fun t => (t.trace, t.phase))
    (step (running Config.standard .readStatus 0 0 (.frame .status .opcode) [bad] [])) =
      some ([.xfer 0x05 0 false], .frame .status (.csHigh true)) := by decide

/-- V-UPD-3: the first mismatch, at index 2. -/
theorem test_compare_mismatch : fieldOf (fun t => (t.cur.k, t.phase))
    (step ((inSegment Config.standard .updatePage 0x40 4 4 2 (.frame .compare .data) [good 0x03]).bufWrite 2 0x09)) =
      some (2, .frame .compare (.csHigh false)) := by decide

/-- V-UPD-3: the WRITE frame's first data byte after the mismatch is BUF[2]. -/
theorem test_write_from_mismatch : fieldOf (fun t => t.trace)
    (step ((inSegment Config.standard .updatePage 0x40 4 2 0 (.frame .write .data) [good 0xFF]).bufWrite 2 0x09)) =
      some [.xfer 0x09 0xFF true] := by decide

/-- V-RD-3: a received byte goes to BUF. -/
theorem test_read_block_byte : fieldOf (fun t => (t.bufByte 0, t.phase))
    (step (running Config.standard .readBlock 0x7FFE 2 (.frame .read .data) [good 0xAA] [])) =
      some (0xAA, .frame .read .data) := by decide

/-- V-ERR-9, V-ERR-10: accesses while busy. -/
theorem test_busy_cmd :
    let s := running Config.standard .writeByte 0 0 (.frame .write .csLow) [] []
    fieldOf (fun t => t.statusWord) (step { s with env := { s.env with sched := [cmd Config.standard 0x10] } }) = some 0x707 := by
  decide
theorem test_busy_buf :
    let s := running Config.standard .readBlock 0 2 (.frame .read .csLow) [] []
    fieldOf (fun t => (t.hostData, t.statusWord)) (step { s with env := { s.env with sched := [rdBuf Config.standard 0] } }) =
      some ([0], 0x707) := by decide

/-- R131: WRSR is refused by name. -/
theorem test_wrsr : execWireWrsr State.reset = .refused .wrsrFormatNotSpecified := rfl

/-- R103: the responder sets WEL at the CS(1) of a WREN frame. -/
theorem test_responder_wren :
    ((Responder.powerUp [] (some 0)).frame Config.standard [0x06]).wel = true := by decide

/-- V-RD-9, V-WR-14: over the responder too a transfer fails where the environment says so, and the frame is closed. -/
theorem test_responder_failure :
    let s := running Config.standard .readBlock 0 2 (.frame .read .opcode) [bad] []
    fieldOf (fun t => (t.trace, t.phase, t.env.answers))
      (step { s with env := { s.env with chip := some (Responder.powerUp [] (some 0)) } }) =
        some ([.xfer 0x03 0 false], .frame .read (.csHigh true), []) := by decide

/-- R108: with nothing else ready the responder's transfers succeed, here with the array byte of a READ. -/
theorem test_responder_answer :
    let s := running Config.standard .readByte 0x40 0 (.frame .read .data) [] []
    let r := { Responder.powerUp [(0x40, 0xA5)] (some 0) with heard := some [0x03, 0x00, 0x40] }
    fieldOf (fun t => (t.trace, t.cur.d)) (step { s with env := { s.env with chip := some r } }) =
      some ([.xfer Config.standard.dummyTx 0xA5 true], 0xA5) := by decide

/-- R341: a reset partway through a READ_BLOCK leaves the responder attached, with its array. -/
theorem test_reset_keeps_the_array :
    let s := running Config.standard .readBlock 0x40 2 (.frame .read .data) [] []
    let r := { Responder.powerUp [(0x40, 0xA5)] (some 0) with heard := some [0x03, 0x00, 0x40] }
    fieldOf (fun t => (t.cs, t.env.chip.map fun w => (w.byteAt 0x40, w.heard)))
      (step { s with env := { s.env with sched := [.reset], chip := some r } }) = some (.z, some (0xA5, none)) := by decide

/-- R341, R347: a reset partway through a WRITE_BLOCK leaves the bytes outside its range. -/
theorem test_reset_keeps_bytes_outside_the_range :
    let s := inSegment Config.standard .writeBlock 0x40 2 0 1 (.frame .write .data) []
    let r := Responder.powerUp [(0x3F, 1), (0x40, 2), (0x42, 3)] (some 0)
    fieldOf (fun t => t.env.chip.map fun w => (w.byteAt 0x3F, w.byteAt 0x42))
      (step { s with env := { s.env with sched := [.reset], chip := some r } }) = some (some (1, 3)) := by decide

/-- R306, R88: a WRITE frame cut short leaves the bytes outside its range. -/
theorem test_cut_write_keeps_bytes_outside_the_range :
    let s := inSegment Config.standard .writeBlock 0x40 2 0 1 (.frame .write (.csHigh true)) []
    let r := { Responder.powerUp [(0x3F, 1), (0x40, 2), (0x42, 3)] (some 0) with
      wel := true, heard := some [0x02, 0x00, 0x40, 9, 9] }
    fieldOf (fun t => (t.phase, t.env.chip.map fun w => (w.byteAt 0x3F, w.byteAt 0x42)))
      (step { s with env := { s.env with chip := some r } }) = some (.frame .write (.txnEnd true), some (1, 3)) := by decide

/-- R9: an invalid configuration is refused. -/
theorem test_invalid_config : step { State.reset with cfg := { Config.standard with page := 48 } } =
    .refused .invalidConfiguration := by
  unfold step; rw [if_neg (by decide)]

/-- `withFetchWord` places a host command and a wire opcode that the next step runs. -/
theorem test_withFetchWord_host :
    fieldOf (fun t => (t.trace, t.phase)) (step (State.reset.withFetchWord 8 0x01)) = some ([.cs true], .pin) := by decide
theorem test_withFetchWord_wire :
    fieldOf (fun t => (t.trace, t.phase)) (step (State.reset.withFetchWord 8 0x0A)) =
      some ([.cs false], .frame .write .txnBegin) ∧
    fetch ((State.reset.withFetchWord 8 0x0A).setSched []) = some .wireWriteA8 := by decide

/-! ### Witnesses: for each obligation with hypotheses, states and operands that meet them, clause by clause -/

/-- A profile with a capacity and a page size. -/
def sized (cap page : Nat) : Config := { Config.standard with cap := cap, page := page }

theorem witness_EncodeAndDecodeAgree :
    decode .host 0x42 = some .updatePage ∧ decode .wire 0x0B = some .wireReadA8 := by decide

theorem witness_FramesRoundTrip :
    nine.valid = true ∧ (Frame.read 0x1FF 1).wellFormed nine = true ∧ (Frame.read 0 512).wellFormed nine = true ∧
    (Frame.write 0x1F0 (List.replicate 16 7)).wellFormed nine = true ∧ (Frame.write 0x1FF [1]).wellFormed nine = true ∧
    Frame.rdsr.wellFormed nine = true := by decide

/-- Each class at its least and its greatest capacity, with the last address. -/
theorem witness_CapacityClasses :
    ((sized 1 1).valid = true ∧ 0 < (sized 1 1).cap) ∧ ((sized 256 16).valid = true ∧ 255 < (sized 256 16).cap) ∧
    ((sized 257 1).valid = true ∧ 256 < (sized 257 1).cap) ∧ ((sized 512 16).valid = true ∧ 511 < (sized 512 16).cap) ∧
    ((sized 513 1).valid = true ∧ 512 < (sized 513 1).cap) ∧ ((sized 65536 64).valid = true ∧ 65535 < (sized 65536 64).cap) ∧
    ((sized 65537 1).valid = true ∧ 65536 < (sized 65537 1).cap) ∧
    ((sized (2 ^ 24) 256).valid = true ∧ 2 ^ 24 - 1 < (sized (2 ^ 24) 256).cap) := by decide

theorem witness_OpcodeSubstitution :
    (256 < (sized 257 1).cap ∧ (sized 257 1).cap ≤ 512 ∧ Nat.testBit 256 8 = true) ∧
    (256 < nine.cap ∧ nine.cap ≤ 512 ∧ Nat.testBit 511 8 = true) ∧
    ¬(256 < (sized 256 16).cap ∧ (sized 256 16).cap ≤ 512) ∧ ¬(256 < (sized 513 1).cap ∧ (sized 513 1).cap ≤ 512) ∧
    Nat.testBit 0xFF 8 = false := by decide

theorem witness_SrFieldsDecodeRdata : State.reset.cfg.srLayout = SrLayout.standard := by decide

/-- Two status bytes that differ in every bit but the first, and an instruction that completes on both. -/
theorem witness_OnlyTheReadyBitDecides :
    (0xFE#8).getLsbD 0 = (0x00#8).getLsbD 0 ∧
    fieldOf (fun t => t.regs.result) (exec .isReady
      { running Config.standard .isReady 0 0 .complete [] [] with cur := { State.reset.cur with sr := 0xFE } }) = some 1 := by
  decide

theorem witness_RegisterReads :
    let s := ready Config.standard [rd Config.standard 0x00] [] []
    let t := ready Config.standard [rd Config.standard 0x20] [] []
    s.cfg.valid = true ∧ s.env.sched = [.host (.read (s.cfg.hostBase + 0x00) 4)] ∧
    t.env.sched = [.host (.read (t.cfg.hostBase + 0x20) 4)] ∧ t.srFields = 1 := by decide

theorem witness_HoldingRegistersAreLatched :
    let s := fun off => ready Config.standard [wr Config.standard off 7] [] []
    ((s 0x04).cfg.valid = true ∧ (s 0x04).env.sched = [.host (.write ((s 0x04).cfg.hostBase + 0x04) (lanesOf 7))]) ∧
    (s 0x08).env.sched = [.host (.write ((s 0x08).cfg.hostBase + 0x08) (lanesOf 7))] ∧
    (s 0x0C).env.sched = [.host (.write ((s 0x0C).cfg.hostBase + 0x0C) (lanesOf 7))] ∧
    (s 0x10).env.sched = [.host (.write ((s 0x10).cfg.hostBase + 0x10) (lanesOf 7))] ∧
    (ready Config.standard [cmd Config.standard 0x20] [] []).phase = .idle ∧
    hostInstr Config.standard ((0x20 : Word).setWidth 8) = some .readByte := by decide

/-- An idle and a busy block under a CMD write, legal (with bits above 7 set) and illegal; and the start it makes. -/
theorem witness_CmdWriteStartsOrIsRecorded :
    let s := ready Config.standard [cmd Config.standard 0x120] [] []
    s.cfg.valid = true ∧ s.phase = .idle ∧ s.env.sched = [.host (.write s.cfg.hostBase (lanesOf 0x120))] ∧
    hostInstr s.cfg ((0x120 : Word).setWidth 8) = some .readByte ∧ hostInstr s.cfg ((0x133 : Word).setWidth 8) = none ∧
    (running Config.standard .readByte 0 0 (.frame .read .csLow) [] []).phase ≠ .idle ∧
    fieldOf State.phase (step s) = some (.frame (.poll .read) .csLow) := by decide

theorem witness_BufferAccessesOnlyWhileIdle :
    let s := ready Config.standard [wrBuf Config.standard 255 9] [] []
    let t := { running Config.standard .readByte 0 0 (.frame .read .csLow) [] [] with
      env := { Env.quiet with sched := [rdBuf Config.standard 0] } }
    s.cfg.valid = true ∧ 255 < s.cfg.bufBytes ∧ s.env.sched = [.host (.write (s.cfg.hostBase + 0x1000 + 255) [9])] ∧
    s.phase = .idle ∧ t.cfg.valid = true ∧ t.env.sched = [.host (.read (t.cfg.hostBase + 0x1000 + 0) 1)] ∧
    t.phase ≠ .idle := by decide

/-- The boundary cases: below the window, past the registers, a misaligned or narrow register access, past BUF, a wide BUF access;
and a write to each read-only register. -/
theorem witness_OtherAccessesDoNothing :
    let c := { Config.standard with hostBase := 0x4000 }
    (∀ x ∈ [(0x3FFC, 4), (0, 1), (0x4024, 4), (0x4022, 4), (0x4020, 1), (0x4FFF, 1), (0x5100, 1), (0x50FF, 4)],
      ¬(0x4000 ≤ x.1 ∧ x.1 < 0x4000 + 0x24 ∧ (x.1 - 0x4000) % 4 = 0 ∧ x.2 = 4) ∧
      ¬(0x4000 + 0x1000 ≤ x.1 ∧ x.1 < 0x4000 + 0x1000 + c.bufBytes ∧ x.2 = 1)) ∧
    c.valid = true ∧ c.bufBytes = 256 ∧
    (ready c [.host (.read 0x3FFC 4)] [] []).env.sched = [.host (.read 0x3FFC 4)] ∧
    ∀ off ∈ [0x14, 0x18, 0x1C, 0x20],
      (ready c [wr c off 7] [] []).env.sched = [.host (.write (0x4000 + off) (lanesOf 7))] := by decide

theorem witness_StepRunsTheFetchedInstruction :
    let f := running Config.standard .readByte 0 0 (.frame .read .csLow) [] []
    let w := running Config.standard .readByte 0 0 (.waitT0 .read) [] []
    f.cfg.valid = true ∧ f.env.sched = [] ∧ decodeWire (f.frameOp .read) = some .wireRead ∧
    w.phase ≠ .idle ∧ hostInstr w.cfg w.lat.code = some .readByte ∧ fetch (w.setSched []) = some .readByte ∧
    State.reset.phase = .idle ∧ (ready Config.standard [.seq] [] []).env.sched = [.seq] ∧
    (ready Config.standard [.waitIdle] [] []).env.sched = [.waitIdle] ∧
    (ready Config.standard [.bus false] [] []).env.sched = [.bus false] := by decide

theorem witness_FailedCommandCompletes :
    isBusCommand .readByte = true ∧ (running Config.standard .readByte 0 0 (.failing .bus) [] []).phase = .failing .bus := by
  decide

theorem witness_BusCommandsRequireInit :
    let s := { State.reset with phase := .check }
    isBusCommand .updatePage = true ∧ s.phase = .check ∧ s.initDone = false := by decide

/-- The least range beyond each bound. -/
theorem witness_OutOfRangeRequestFails :
    let s := running Config.standard .readByte 0x8000 0 .check [] []
    let t := running Config.standard .readBlock 0xFFFFFFFF 2 .check [] []
    let u := running Config.standard .writePage 60 5 .check [] []
    s.phase = .check ∧ s.initDone = true ∧ s.cfg.cap < s.lat.addr.toNat + 1 ∧
    t.cfg.cap < t.lat.addr.toNat + t.lat.len.toNat ∧ u.cfg.page < u.lat.addr.toNat % u.cfg.page + u.lat.len.toNat := by decide

theorem witness_LongAndEmptyRequests :
    let s := running Config.standard .readBlock 0 257 .check [] []
    let e := running Config.standard .writePage 0x8000 0 .check [] []
    let l := { running Config.standard .updatePage 0 64 .check [] [] with cfg := { Config.standard with bufBytes := 63 } }
    s.phase = .check ∧ s.initDone = true ∧ s.lat.addr.toNat + s.lat.len.toNat ≤ s.cfg.cap ∧
    s.cfg.bufBytes < s.lat.len.toNat ∧ e.lat.len = 0 ∧ e.lat.addr.toNat + e.lat.len.toNat ≤ e.cfg.cap ∧
    l.lat.addr.toNat % l.cfg.page + l.lat.len.toNat ≤ l.cfg.page ∧ l.cfg.bufBytes < l.lat.len.toNat := by decide

/-- An illegal code at each end of its range, one with bits above 7 set, and the update codes where there are none. -/
theorem witness_IllegalCommandCompletesAtOnce :
    let s := ready { Config.standard with hasUpdate := false } [cmd Config.standard 0x140] [] []
    s.cfg.valid = true ∧ s.phase = .idle ∧ s.env.sched = [.host (.write s.cfg.hostBase (lanesOf 0x140))] ∧
    (0x140 : Word).toNat % 256 = 0x40 ∧ s.cfg.hasUpdate = false ∧ (0x1FF : Word).toNat % 256 = 0xFF ∧
    (0x05 : Word).toNat % 256 = 0x05 := by decide

/-- A step that records each cause, and one that keeps a recorded one. -/
theorem witness_FirstFaultIsKept :
    fieldOf State.fault (step { running Config.standard .readByte 0 0 (.frame .read .csLow) [] [] with
      env := { Env.quiet with sched := [cmd Config.standard 0x10] } }) = some (some .busyAccess) ∧
    fieldOf State.fault (step { State.reset with env := { Env.quiet with sched := [cmd Config.standard 0x10] } }) =
      some (some .notInit) ∧
    fieldOf State.fault (step (holding 0 300 (ready Config.standard [cmd Config.standard 0x21] [] []))) =
      some (some .bufRange) ∧
    fieldOf State.fault (step (ready Config.standard [cmd Config.standard 0x55] [] [])) = some (some .illegalCmd) ∧
    fieldOf State.fault (step { ready Config.standard [cmd Config.standard 0x55] [] [] with fault := some .notInit }) =
      some (some .notInit) := by decide

/-- No chip; a chip and an idle block; and with a chip, commands that write the array, at the checks and past them, and one that
does not. -/
theorem witness_ResetValues :
    let q := Responder.powerUp [(0x40, 1)] (some 0)
    let under := fun (s : State) (ch : Option Responder) => { s with env := { s.env with sched := [.reset], chip := ch } }
    let w := under (inSegment Config.standard .writeBlock 0x40 3 0 1 (.frame .write .data) []) (some q)
    let b := under (running Config.standard .updateByte 0x40 0 .check [] []) (some q)
    let r := under (running Config.standard .readByte 0x40 0 (.pollY .read) [] []) (some q)
    (w.cfg.valid = true ∧ w.env.sched = [.reset] ∧ w.phase ≠ .idle ∧ w.env.chip = some q ∧ writesArray w.command = true ∧
      isByteCommand w.command = false ∧ w.lat.len.toNat = 3 ∧ w.phase ≠ .check ∧ 0x3F < w.lat.addr.toNat) ∧
    (b.phase = .check ∧ writesArray b.command = true ∧ isByteCommand b.command = true) ∧
    (r.phase ≠ .idle ∧ writesArray r.command = false) ∧ (under (ready Config.standard [] [] []) (some q)).phase = .idle ∧
    (under (ready Config.standard [] [] []) none).env.chip = none := by decide

/-- A running command at each point outside a frame that the obligations on INIT, DEINIT, GET_CAPACITY, GET_PAGE_SIZE and the
status commands name, initialised. -/
theorem witness_points :
    ∀ p ∈ [Phase.check, .pin, .complete], (running Config.standard .init 0 0 p [] []).phase = p ∧
      (running Config.standard .init 0 0 p [] []).initDone = true := by decide

theorem witness_StatusCommandsOpenTheirFrame :
    (Instr.writeDisable, FrameUse.wrdi) ∈
      [(Instr.readStatus, FrameUse.status), (.isReady, .status), (.writeEnable, .wrenCmd), (.writeDisable, .wrdi)] := by decide

theorem witness_StatusReadRun :
    let s := ready Config.standard [cmd Config.standard ((encode .readStatus).setWidth 32)] [good 0xFF, good 0x8C] []
    s.cfg.valid = true ∧ s.phase = .idle ∧ s.initDone = true ∧ s.env.busFree = true ∧ s.env.chip = none ∧
    s.env.sched = [.host (.write s.cfg.hostBase (lanesOf ((encode .readStatus).setWidth 32)))] ∧
    s.env.answers = goodAnswers [0xFF, 0x8C] ++ [] := by decide

theorem witness_LatchCommandRun :
    let s := ready Config.standard [cmd Config.standard ((encode .writeDisable).setWidth 32)] [good 0xFF] []
    s.cfg.valid = true ∧ s.phase = .idle ∧ s.initDone = true ∧ s.env.busFree = true ∧ s.env.chip = none ∧
    s.env.sched = [.host (.write s.cfg.hostBase (lanesOf ((encode .writeDisable).setWidth 32)))] ∧
    s.env.answers = goodAnswers [0xFF] ++ [] := by decide

theorem witness_PollerSteps :
    ∀ p ∈ [Phase.waitT0 .compare, .pollT .write, .pollY .read],
      (running Config.standard .updateBlock 0 1 p [] []).phase = p := by decide

/-- V-WAIT-3: elapsed times 6000 and 6001. -/
theorem witness_WaitEndsWithTimeout :
    let polls := [(6000, 0xFF#8, 0x01#8)]
    let last := (6001, 0xFF#8, 0x01#8)
    let s := running Config.standard .readByte 0 0 (.frame (.poll .read) .csLow)
      [good 0xFF, good 0x01, good 0xFF, good 0x01] [6000, 6001]
    s.cfg.valid = true ∧ hostInstr s.cfg s.lat.code = some .readByte ∧ waitsFor .readByte .read = true ∧
    s.phase = .frame (.poll .read) .csLow ∧ s.env.sched = [] ∧ s.env.busFree = true ∧ s.env.chip = none ∧
    (∀ x ∈ polls, x.1 ≤ s.cfg.twcMaxUs + 1000) ∧ s.cfg.twcMaxUs + 1000 < last.1 ∧
    (∀ x ∈ polls ++ [last], x.1 < 2 ^ 32 ∧ x.2.2.getLsbD 0 = true) ∧
    s.env.times = (polls ++ [last]).map (fun x => s.cur.waitStart + BitVec.ofNat 32 x.1) ++ [] ∧
    s.env.answers = (polls ++ [last]).flatMap (fun x => goodAnswers [x.2.1, x.2.2]) ++ [] := by decide

theorem witness_PollAnswerDecides :
    (running Config.standard .readByte 0 0 (.frame (.poll .read) (.txnEnd false)) [] []).phase =
      .frame (.poll .read) (.txnEnd false) := by decide

/-- The last byte, and a block that fills BUF. -/
theorem witness_ReadCommandsStartAndComplete :
    let s := running Config.standard .readByte 0x7FFF 0 .check [] []
    let t := running Config.standard .readBlock 0x7F00 256 .check [] []
    s.phase = .check ∧ s.initDone = true ∧ s.lat.addr.toNat + 1 ≤ s.cfg.cap ∧
    t.phase = .check ∧ t.initDone = true ∧ t.lat.addr.toNat + t.lat.len.toNat ≤ t.cfg.cap ∧
    t.lat.len.toNat ≤ t.cfg.bufBytes ∧ t.lat.len ≠ 0 := by decide

/-- A byte, a whole last page and a block that crosses pages. -/
theorem witness_SegmentCommandsStart :
    let b := running Config.standard .updateByte 0x7FFF 0 .check [] []
    let p := running Config.standard .writePage 0x7FC0 64 .check [] []
    let k := running Config.standard .writeBlock 10 200 .check [] []
    (b.cfg.valid = true ∧ b.phase = .check ∧ b.initDone = true ∧ b.lat.code = encode .updateByte ∧
      b.lat.addr.toNat + 1 ≤ b.cfg.cap) ∧
    (p.lat.code = encode .writePage ∧ p.lat.len.toNat = 64 ∧ p.lat.addr.toNat % p.cfg.page + 64 ≤ p.cfg.page ∧
      p.lat.addr.toNat + 64 ≤ p.cfg.cap ∧ 64 ≤ p.cfg.bufBytes) ∧
    (k.lat.code = encode .writeBlock ∧ k.lat.len.toNat = 200 ∧ min (k.cfg.page - k.lat.addr.toNat % k.cfg.page) 200 = 54 ∧
      k.lat.addr.toNat + 200 ≤ k.cfg.cap ∧ 200 ≤ k.cfg.bufBytes) := by decide

/-- The opcode of each frame, on a profile where it is that opcode. -/
theorem witness_FramePointSteps :
    (running Config.standard .readByte 0 0 .check [] []).frameOp .read = encode .wireRead ∧
    (running nine .readByte 0x100 0 .check [] []).frameOp .read = encode .wireReadA8 ∧
    (inSegment nine .writeByte 0xFF 1 0 0 .check []).frameOp .write = encode .wireWrite ∧
    (inSegment nine .writeByte 0x100 1 0 0 .check []).frameOp .write = encode .wireWriteA8 ∧
    State.reset.frameOp .status = encode .wireRdsr ∧ State.reset.frameOp .wrenSeq = encode .wireWren ∧
    State.reset.frameOp .wrdi = encode .wireWrdi ∧ Env.quiet.busFree = true ∧ (State.reset.setBus false).env.busFree = false ∧
    (∀ pt ∈ [FramePoint.csLow, .txnBegin, .csHigh true, .csHigh false, .txnEnd true],
      (running Config.standard .readByte 0 0 (.frame .read pt) [] []).phase = .frame .read pt) ∧
    (∀ u ∈ [FrameUse.status, .read, .wrenCmd, .wrdi, .wrenSeq],
      (running Config.standard .readByte 0 0 (.frame u (.txnEnd false)) [] []).phase = .frame u (.txnEnd false)) ∧
    State.reset.frameOp .wrenCmd = encode .wireWren := by decide

/-- The opcode and the last address byte, with each answer. -/
theorem witness_OpcodeAndAddressAreSent :
    let s := running Config.standard .readByte 0x123 0 (.frame .read (.addr 1)) [good 0xFF] []
    let t := running Config.standard .readByte 0x123 0 (.frame .read .opcode) [bad] []
    s.frameOp .read = encode .wireRead ∧ (s.frameAddr .read)[1]? = some 0x23 ∧ (s.frameAddr .read).length ≤ 2 ∧
    s.xferAnswer.ok = true ∧ t.phase = .frame .read .opcode ∧ 0 < (t.frameAddr .read).length ∧ t.xferAnswer.ok = false := by
  decide

theorem witness_StatusByteIsKept :
    let s := running Config.standard .readByte 0 0 (.frame (.poll .read) .data) [good 0x01] []
    let t := running Config.standard .readStatus 0 0 (.frame .status .data) [bad] []
    s.phase = .frame (.poll .read) .data ∧ s.xferAnswer.ok = true ∧ t.phase = .frame .status .data ∧
    t.xferAnswer.ok = false := by decide

theorem witness_ReadDataIsKept :
    let s := running nine .readByte 0x1FF 0 (.frame .read .data) [good 0xAA] []
    let t := inSegment Config.standard .readBlock 0 256 0 255 (.frame .read .data) [good 0xAA]
    let u := running Config.standard .readBlock 0 4 (.frame .read .data) [bad] []
    (s.frameOp .read = encode .wireReadA8 ∧ s.phase = .frame .read .data ∧ s.lat.code = encode .readByte ∧
      s.xferAnswer.ok = true) ∧
    (t.frameOp .read = encode .wireRead ∧ t.phase = .frame .read .data ∧ t.lat.code = encode .readBlock ∧
      t.cur.i < t.cfg.bufBytes ∧ t.xferAnswer.ok = true) ∧ u.xferAnswer.ok = false := by decide

theorem witness_CompareEndsAtTheFirstMismatch :
    let s := inSegment Config.standard .updateByte 0x40 1 1 0 (.frame .compare .data) [good 0x5A]
    let t := (inSegment Config.standard .updatePage 0x40 4 4 3 (.frame .compare .data) [good 0x05]).bufWrite 3 0x04
    (s.frameOp .compare = encode .wireRead ∧ s.phase = .frame .compare .data ∧ s.lat.code = encode .updateByte ∧
      s.xferAnswer.ok = true ∧ s.xferAnswer.rx = s.lat.data) ∧
    (t.frameOp .compare = encode .wireRead ∧ t.lat.code = encode .updatePage ∧ t.cur.off + t.cur.i < t.cfg.bufBytes ∧
      t.bufByte (t.cur.off + t.cur.i) = 0x04 ∧ t.xferAnswer.ok = true ∧ t.xferAnswer.rx ≠ 0x04) := by decide

theorem witness_WriteDataIsSent :
    let s := inSegment nine .writeByte 0x1A5 1 0 0 (.frame .write .data) [good 0xFF]
    let t := (inSegment Config.standard .updatePage 0x40 4 2 1 (.frame .write .data) [bad]).bufWrite 3 0x04
    (s.frameOp .write = encode .wireWriteA8 ∧ s.phase = .frame .write .data ∧ s.lat.code = encode .writeByte ∧
      s.xferAnswer.ok = true) ∧
    (t.frameOp .write = encode .wireWrite ∧ t.lat.code = encode .updatePage ∧
      t.cur.off + (t.cur.k + t.cur.i) < t.cfg.bufBytes ∧ t.bufByte (t.cur.off + (t.cur.k + t.cur.i)) = 0x04 ∧
      t.xferAnswer.ok = false) := by decide

/-- A command at the END of its segment's WRITE frame, for the invariant. -/
def atWriteEnd : State :=
  inSegment Config.standard .writePage 0x40 4 0 4 (.frame .write (.txnEnd false)) []

theorem atWriteEnd_inv : Inv atWriteEnd where
  cfg := by decide
  buf := by decide
  chip := by intro r h; simp [atWriteEnd, inSegment, running, ready, State.afterReset, Env.quiet] at h
  before := by decide
  idle := by intro h; simp [atWriteEnd, inSegment, running] at h
  running := by
    intro _
    refine ⟨.writePage, by decide, by decide, by decide, by decide, ⟨?_, by decide⟩, by simp⟩
    unfold State.segOk
    decide

/-- An update at the END of its compare frame, which found its first mismatch at index k, or none at k = 4. -/
def atCompareEnd (k : Nat) : State :=
  inSegment Config.standard .updatePage 0x40 4 k 4 (.frame .compare (.txnEnd false)) []

theorem atCompareEnd_inv (k : Nat) (hk : k = 2 ∨ k = 4) : Inv (atCompareEnd k) where
  cfg := by rcases hk with rfl | rfl <;> decide
  buf := by rcases hk with rfl | rfl <;> decide
  chip := by intro r h; simp [atCompareEnd, inSegment, running, ready, State.afterReset, Env.quiet] at h
  before := by rcases hk with rfl | rfl <;> decide
  idle := by intro h; simp [atCompareEnd, inSegment, running] at h
  running := by
    intro _
    refine ⟨.updatePage, ?_, ?_, ?_, ?_, ?_, fun _ => ?_⟩
    all_goals rcases hk with rfl | rfl <;> first | decide | (unfold State.rangeOk State.segOk; decide)

/-- V-UPD-3 and V-UPD-1 at the END of the compare frame: after a mismatch the write's wait, else the next segment or the end. -/
theorem witness_SegmentLoopAdvances :
    (Inv atWriteEnd ∧ atWriteEnd.frameOp .write = encode .wireWrite ∧ atWriteEnd.phase = .frame .write (.txnEnd false)) ∧
    (Inv (atCompareEnd 4) ∧ (atCompareEnd 4).frameOp .compare = encode .wireRead ∧
      (atCompareEnd 4).phase = .frame .compare (.txnEnd false) ∧ (atCompareEnd 4).cur.k = (atCompareEnd 4).cur.segLen ∧
      fieldOf State.phase (step (atCompareEnd 4)) = some .complete) ∧
    (Inv (atCompareEnd 2) ∧ (atCompareEnd 2).cur.k < (atCompareEnd 2).cur.segLen ∧
      fieldOf State.phase (step (atCompareEnd 2)) = some (.waitT0 .write)) :=
  ⟨⟨atWriteEnd_inv, by decide, by decide⟩, ⟨atCompareEnd_inv 4 (.inr rfl), by decide, by decide, by decide, by decide⟩,
    atCompareEnd_inv 2 (.inl rfl), by decide, by decide⟩

/-- Steps that answer a next state: of a host command, of a wire opcode that writes BUF, and of one that does not. -/
theorem witness_frames :
    (nextOf (exec .init (running Config.standard .init 0 0 .check [] []))).isSome = true ∧
    (nextOf (exec .wireRead (running Config.standard .readBlock 0 2 (.frame .read .data) [good 0xAA] []))).isSome = true ∧
    (nextOf (exec .wireWren (running Config.standard .writeEnable 0 0 (.frame .wrenCmd .csLow) [] []))).isSome = true ∧
    (running Config.standard .readBlock 0 2 (.frame .read .data) [good 0xAA] []).xferAnswer.ok = true ∧
    isByteCommand (running Config.standard .readBlock 0 2 (.frame .read .data) [good 0xAA] []).command = false := by decide

/-- A step that writes RDATA. -/
theorem witness_RdataWriters :
    let s := running Config.standard .readStatus 0 0 .complete [] []
    let s' := { s with cur := { s.cur with sr := 0x8C } }
    s'.phase = .complete ∧ fieldOf (fun t => t.regs.rdata) (exec .readStatus s') = some 0x8C ∧ s'.regs.rdata ≠ 0x8C := by decide

/-- Steps that write `initDone` and the clock, at each point. -/
theorem witness_InitDoneAndClockWriters :
    fieldOf State.initDone (exec .init (running Config.standard .init 0 0 .pin [] [])) = some true ∧
    fieldOf State.clockHz (exec .init (running Config.standard .init 0 0 .check [] [])) = some 1 ∧
    fieldOf State.initDone (exec .deinit (running Config.standard .deinit 0 0 .pin [] [])) = some false ∧
    (fieldOf State.initDone (step (running Config.standard .deinit 0 0 .pin [] [])) = some false ∧
      (running Config.standard .deinit 0 0 .pin [] []).initDone = true) := by decide

/-- A step that stays in a command, and one that fails it. -/
theorem witness_ResultIsHeldWhileBusy :
    fieldOf State.phase (step (running Config.standard .readByte 0 0 (.pollY .read) [] [])) =
      some (.frame (.poll .read) .csLow) ∧
    fieldOf (fun t => (t.phase, t.regs.err)) (step (running Config.standard .readByte 0 0 (.failing .timeout) [] [])) =
      some (.idle, .timeout) := by decide

/-- A step with an event, with no reset next. -/
theorem witness_OneEventPerStep :
    let s := running Config.standard .readByte 0 0 (.pollY .read) [] []
    fieldOf State.trace (step s) = some [.yield] ∧ s.env.sched = [] ∧ fieldOf State.cfg (step s) = some s.cfg := by decide

theorem witness_InvariantHoldsAtReset :
    nine.valid = true ∧ Memory.wf (Responder.powerUp [(0, 1), (5, 2)] none).array = true ∧ Memory.wf [(0, 1), (5, 3)] = true := by
  decide

/-- A state that meets the invariant, and its step. -/
theorem witness_InvariantIsKept :
    Inv atWriteEnd ∧ fieldOf State.phase (step atWriteEnd) = some .complete := ⟨atWriteEnd_inv, by decide⟩

/-- A state right before the opcode of a WRITE, after a WREN frame. -/
theorem witness_WireProtocolIsKept :
    let s := { inSegment Config.standard .writePage 0x40 4 0 0 (.frame .write .opcode) [good 0xFF] with
      trace := frameEvents 1000 [0x06] [0xFF] ++ [.cs false, .beginTxn 1000 .msbFirst mode0] }
    s.scanOk ∧ fieldOf State.phase (step s) = some (.frame .write (.addr 0)) :=
  ⟨⟨true, by decide, fun _ => rfl⟩, by decide⟩

theorem witness_MemoryIsCanonical : Memory.wf [(3, 1), (7, 0)] = true ∧ Memory.wf [(3, 1), (3, 0)] = false := by decide

/-- One page, and a range to the end of the array over two pages. -/
theorem witness_SplitterSegments :
    nine.valid = true ∧ 1 ≤ 1 ∧ 511 + 1 ≤ nine.cap ∧ (segments nine 0x1E8 24)[0]? = some ⟨0x1E8, 8, 0⟩ ∧
    (segments nine 0x1E8 24)[0 + 1]? = some ⟨0x1F0, 16, 8⟩ ∧ 0x1E8 + 24 ≤ nine.cap := by decide

/-- V-RD-3: READ_BLOCK 0x7FFE, 2. -/
theorem witness_ReadBlockRun :
    let s := holding 0x7FFE 2 (ready Config.standard [cmd Config.standard 0x21]
      [good 0xFF, good 0x00, good 0xFF, good 0xFF, good 0xFF, good 0xAA, good 0xBB] [1000])
    s.cfg.valid = true ∧ s.phase = .idle ∧ s.initDone = true ∧ s.env.busFree = true ∧ s.env.chip = none ∧
    s.env.sched = [.host (.write s.cfg.hostBase (lanesOf 0x21))] ∧ s.regs.addr.toNat + s.regs.len.toNat ≤ s.cfg.cap ∧
    1 ≤ s.regs.len.toNat ∧ s.regs.len.toNat ≤ s.cfg.bufBytes ∧ s.env.times = [1000] ∧
    s.env.answers = goodAnswers ([0xFF, 0x00] ++ ([0xFF, 0xFF, 0xFF] ++ [0xAA, 0xBB])) ++ [] ∧
    (0x00#8).getLsbD 0 = false ∧ 3 = 1 + s.cfg.nAddr ∧ 2 = s.regs.len.toNat := by decide

/-- V-WR-10 in small: two segments, each with its own opcode. -/
theorem witness_WriteBlockRun :
    let x : SegmentInput := ⟨5, 0xFF, 0x00, 0xFF, [0xFF, 0xFF, 0xFF]⟩
    let s := holding 0xFF 2 (ready nine [cmd nine 0x31] (goodAnswers ([x, x].flatMap SegmentInput.rx)) [5, 5])
    s.cfg.valid = true ∧ s.phase = .idle ∧ s.initDone = true ∧ s.env.busFree = true ∧ s.env.chip = none ∧
    s.env.sched = [.host (.write s.cfg.hostBase (lanesOf 0x31))] ∧ s.regs.addr.toNat + s.regs.len.toNat ≤ s.cfg.cap ∧
    1 ≤ s.regs.len.toNat ∧ s.regs.len.toNat ≤ s.cfg.bufBytes ∧ segments s.cfg 0xFF 2 = [⟨0xFF, 1, 0⟩, ⟨0x100, 1, 1⟩] ∧
    x.writeRx.length = 1 + s.cfg.nAddr + 1 ∧ x.status.getLsbD 0 = false ∧ s.env.times = [x, x].map SegmentInput.time ++ [] ∧
    s.env.answers = goodAnswers ([x, x].flatMap SegmentInput.rx) ++ [] := by decide

/-- V-UPD-1 in small: UPDATE_BLOCK of two equal bytes in two segments, and the lengths of UPDATE_BYTE and UPDATE_PAGE. -/
theorem witness_IdenticalUpdateSkipsTheWrite :
    let x : CompareInput := ⟨5, 0xFF, 0x00, [0xFF, 0xFF, 0xFF]⟩
    let s := ((holding 0x3F 2 (ready Config.standard [cmd Config.standard 0x41]
      [good 0xFF, good 0x00, good 0xFF, good 0xFF, good 0xFF, good 0x01,
        good 0xFF, good 0x00, good 0xFF, good 0xFF, good 0xFF, good 0x02] [5, 5])).bufWrite 0 0x01).bufWrite 1 0x02
    (Instr.updateBlock ∈ [Instr.updateByte, .updateBlock, .updatePage] ∧ s.cfg.valid = true ∧ s.cfg.hasUpdate = true ∧
      s.phase = .idle ∧ s.initDone = true ∧ s.env.busFree = true ∧ s.env.chip = none ∧
      s.env.sched = [.host (.write s.cfg.hostBase (lanesOf ((encode .updateBlock).setWidth 32)))] ∧ 1 ≤ s.regs.len.toNat ∧
      s.regs.addr.toNat + s.regs.len.toNat ≤ s.cfg.cap ∧ s.regs.len.toNat ≤ s.cfg.bufBytes ∧
      x.head.length = 1 + s.cfg.nAddr ∧ x.status.getLsbD 0 = false ∧ [x, x].length = (segments s.cfg 0x3F 2).length ∧
      s.env.times = [x, x].map CompareInput.time ++ [] ∧
      s.env.answers = goodAnswers (List.zipWith (s.compareRx .updateBlock) (segments s.cfg 0x3F 2) [x, x]).flatten ++ []) ∧
    (0x3F % s.cfg.page + 1 ≤ s.cfg.page ∧ (segments s.cfg 0x3F 1).length = 1 ∧
      s.compareRx .updateByte ⟨0x3F, 1, 0⟩ x = [0xFF, 0x00, 0xFF, 0xFF, 0xFF, 0x5A] ∧
      s.compareRx .updatePage ⟨0x3F, 1, 0⟩ x = [0xFF, 0x00, 0xFF, 0xFF, 0xFF, 0x01]) := by decide

theorem witness_WrenAndWrdiSetTheLatch :
    let r := { Responder.powerUp [] (some 0) with heard := some [0x06] }
    let s := running Config.standard .writeEnable 0 0 (.frame .wrenCmd (.csHigh false)) [] []
    let t := running Config.standard .writeDisable 0 0 (.frame .wrdi (.csHigh false)) [] []
    ({ s with env := { s.env with chip := some r } }).env.chip = some r ∧ r.heard = some [0x06] ∧
    s.phase = .frame .wrenCmd (.csHigh false) ∧ t.phase = .frame .wrdi (.csHigh false) := by decide

/-- A responder that accepts a whole WRITE frame, and one cut short after its first data byte; and a responder that does not. -/
theorem witness_ResponderReadsBackWhatWasWritten :
    let r := { Responder.powerUp [(0x1FF, 0)] (some 0) with wel := true }
    let q := ((frameBytes nine (.write 0x1FE [1, 2])).take 3).foldl (fun q tx => q.hear tx) r.onCsLow
    nine.valid = true ∧ (Frame.write 0x1FE [1, 2]).wellFormed nine = true ∧ r.wel = true ∧ r.wip = false ∧
    r.busyPolls = some 0 ∧ (r.frame nine (frameBytes nine (.write 0x1FE [1, 2]))).byteAt 0x1FF = 2 ∧
    q.heard = some [0x0A, 0xFE, 1] ∧ (Responder.powerUp [] (some 0)).wel = false := by decide

end Sys2Proof.Tests
end

section
/-! PROOFS. The configuration is fixed, and the invariant holds after reset (spec/00_scope.md R8, R9). -/

namespace Sys2Proof.Machine

/-! ### The configuration (00_scope.md R8, 70_reset_and_hazards.md R340) -/

@[simp] theorem State.afterReset_cfg (c : Config) (e : Env) : (State.afterReset c e).cfg = c := rfl

@[simp] theorem State.warmReset_cfg (s : State) : s.warmReset.cfg = s.cfg := rfl

@[simp] theorem State.raiseFault_cfg (c : Cause) (s : State) : (s.raiseFault c).cfg = s.cfg := rfl

theorem Moves.cfg_eq {s q : State} (h : Moves s q) : q.cfg = s.cfg := by
  rcases h with rfl | ⟨r, -, rfl⟩ <;> rfl

/-- Whoever moves: a sequencer step by `ExecEffect`, a host access by `HostKeeps`, a reset by R340. -/
theorem StepCase.cfg_eq {s t : State} (h : StepCase s t) : t.cfg = s.cfg := by
  cases h with
  | idle q hq => exact hq.cfg_eq
  | run q i hq _ _ hexec => exact (exec_next hexec).cfg.trans hq.cfg_eq
  | start r op v i _ _ _ _ hexec => exact (exec_next hexec).cfg
  | write r a lanes => exact (hostWrite_keeps a lanes (s.setSched r)).cfg
  | read r a n => exact (hostRead_keeps a n (s.setSched r)).cfg
  | readStatus r => exact (hostRead_keeps _ 4 (s.setSched r)).cfg
  | illegal r op v => simp
  | busyCmd r op => simp
  | bus r g => simp
  | reset r => simp

/-- Settles O49, by cases on who moves. -/
theorem configurationIsFixed : Obligations.ConfigurationIsFixed :=
  fun _ _ h => (step_next h).2.cfg_eq

/-! ### Reset (00_scope.md R9, 10_state.md R51, R56) -/

/-- After reset BUF holds nothing, and the block is idle and not initialised with its line not driven. -/
theorem inv_afterReset {c : Config} {e : Env} (hc : c.valid = true)
    (hchip : ∀ r, e.chip = some r → Memory.wf r.array = true) (hbefore : Memory.wf e.before = true) :
    Inv (State.afterReset c e) where
  cfg := hc
  buf := rfl
  chip := hchip
  before := hbefore
  idle := fun _ => rfl
  running := fun hrun => absurd rfl hrun

theorem standard_valid : Config.standard.valid = true := by decide

/-- Settles O50: power-up is a reset of the standard configuration, with no responder attached. -/
theorem invariantHoldsAtReset : Obligations.InvariantHoldsAtReset :=
  ⟨inv_afterReset standard_valid nofun rfl, fun _ _ => inv_afterReset⟩

end Sys2Proof.Machine
end

section
/-! PROOFS. Every step keeps the invariant (spec/10_state.md R51, spec/41_status.md R199, spec/43_write.md R241, R246). -/

namespace Sys2Proof.Machine

/-! ### The canonical form of the responder's memories (20_memory.md R81, log 4) -/

/-- The array of an attached responder and the array kept before a command are in their canonical form. -/
structure Env.Canonical (e : Env) : Prop where
  chip : ∀ r, e.chip = some r → Memory.wf r.array = true
  before : Memory.wf e.before = true

theorem Responder.endCycle_wf {r : Responder} (h : Memory.wf r.array = true) : Memory.wf r.endCycle.array = true :=
  Memory.setAll_wf r.pend h

theorem Responder.afterStatus_wf {r : Responder} (h : Memory.wf r.array = true) : Memory.wf r.afterStatus.array = true := by
  unfold Responder.afterStatus
  split
  · split
    · exact h
    · dsimp only
      split
      · exact Responder.endCycle_wf h
      · exact h
  · exact h

theorem Responder.afterWrite_wf {r : Responder} (c : Config) (op : Byte) (rest : List Byte) (h : Memory.wf r.array = true) :
    Memory.wf (r.afterWrite c op rest).array = true := by
  unfold Responder.afterWrite
  dsimp only
  split
  · split
    · exact Responder.endCycle_wf h
    · exact h
  · exact h

theorem Responder.onCsHigh_wf {r : Responder} (c : Config) (h : Memory.wf r.array = true) :
    Memory.wf (r.onCsHigh c).array = true := by
  unfold Responder.onCsHigh
  dsimp only
  split
  · exact h
  · exact h
  · split
    · exact Responder.afterStatus_wf h
    · split <;> exact h
    · split <;> exact h
    · exact Responder.afterWrite_wf c _ _ h
    · split
      · exact Responder.afterWrite_wf c _ _ h
      · exact h
    · exact h

theorem Responder.onCutShort_wf {r : Responder} (c : Config) (n : Nat) (range : Memory) (h : Memory.wf r.array = true) :
    Memory.wf (r.onCutShort c n range).array = true := by
  unfold Responder.onCutShort
  dsimp only
  split
  · exact Memory.setAll_wf _ h
  · exact Responder.onCsHigh_wf (r := r.unsure n) c h

/-- A change of the responder that keeps its array's canonical form, and of nothing else that matters here. -/
theorem Env.Canonical.mapChip {e e' : Env} (h : e.Canonical) {f : Responder → Responder} (hc : e'.chip = e.chip.map f)
    (hb : e'.before = e.before) (hf : ∀ r, Memory.wf r.array = true → Memory.wf (f r).array = true) : e'.Canonical where
  chip := fun r hr => by
    obtain ⟨q, hq, rfl⟩ := Option.map_eq_some_iff.1 (hc ▸ hr)
    exact hf q (h.chip q hq)
  before := hb ▸ h.before

theorem Env.Canonical.congr {e e' : Env} (h : e.Canonical) (hc : e'.chip = e.chip) (hb : e'.before = e.before) : e'.Canonical :=
  h.mapChip (f := id) (by simp [hc]) hb fun _ h => h

theorem Env.Canonical.afterXfer {e : Env} (h : e.Canonical) (tx : Byte) : (e.afterXfer tx).Canonical := by
  unfold Env.afterXfer
  split <;> rename_i hc
  · exact h.congr rfl rfl
  · exact h.congr rfl rfl
  all_goals exact h.mapChip (f := Responder.hear tx) (by simp [hc]) rfl fun _ h => h

theorem Env.Canonical.afterNow {e : Env} (h : e.Canonical) : e.afterNow.Canonical := by
  unfold Env.afterNow
  split <;> exact h.congr rfl rfl

theorem Env.Canonical.keepBefore {e : Env} (h : e.Canonical) : e.keepBefore.Canonical where
  chip := fun r hr => h.chip r (by simpa using hr)
  before := by
    unfold Env.keepBefore
    split
    · exact Memory.setAll_wf _ (h.chip _ ‹_›)
    · exact h.before

theorem Env.Canonical.cutShort {e : Env} (h : e.Canonical) (c : Config) (range : Memory) : (e.cutShort c range).Canonical := by
  cases hc : e.chip with
  | none => rwa [(Env.noChip hc c range).2.1]
  | some r =>
    rw [Env.cutShort_chip hc]
    exact h.mapChip (f := (·.onCutShort c e.draws range)) (by simp [hc]) rfl fun _ => Responder.onCutShort_wf c _ range

theorem Env.Canonical.abandon {e : Env} (h : e.Canonical) (range : Memory) : (e.abandon range).Canonical := by
  cases hc : e.chip with
  | none => rwa [(Env.noChip hc Config.standard range).2.2]
  | some r =>
    rw [Env.abandon_chip hc]
    exact h.mapChip (f := (·.abandoned e.draws e.before range)) (by simp [hc]) rfl
      fun _ h => Memory.setAll_wf _ (Memory.setAll_wf _ h)

/-! ### Instructions keep the canonical form -/

/-- The memories of a state are in their canonical form. -/
def State.Canonical (s : State) : Prop := Memory.wf s.buf = true ∧ s.env.Canonical

theorem State.Canonical.startWait {s : State} (h : s.Canonical) (r : WaitRet) : (s.startWait r).Canonical :=
  ⟨h.1, h.2.afterNow⟩

theorem State.Canonical.xfer {s : State} (h : s.Canonical) (tx : Byte) : (s.xfer tx).Canonical := ⟨h.1, h.2.afterXfer tx⟩

theorem State.Canonical.csLow {s : State} (h : s.Canonical) : s.csLow.Canonical :=
  ⟨h.1, h.2.mapChip rfl rfl fun _ h => h⟩

theorem State.Canonical.csHigh {s : State} (h : s.Canonical) : s.csHigh.Canonical :=
  ⟨h.1, h.2.mapChip rfl rfl fun _ => Responder.onCsHigh_wf s.cfg⟩

/-- A host command's step changes the memories through `CS`, the reading of the time and the array kept at its start. -/
theorem CmdStep.canonical {i : Instr} {s t : State} (h : CmdStep i s t) (hs : s.Canonical) : t.Canonical := by
  cases h with
  | check _ hc =>
    cases hc with
    | opens u => exact hs.csLow
    | waits r => exact hs.startWait r
    | segments c r => exact State.Canonical.startWait (s := (s.setCur c).setEnv s.env.keepBefore) ⟨hs.1, hs.2.keepBefore⟩ r
    | _ => exact hs
  | initPin =>
    exact State.Canonical.csHigh (s := { s with clockHz := if s.lat.clk = 0 then s.cfg.defaultClockHz else s.lat.clk }) hs
  | waitT0 r => exact hs.startWait r
  | pollT r => exact ⟨hs.1, hs.2.afterNow⟩
  | _ => exact hs

/-! ### The one primitive of a frame's step (10_state.md R36, 30_encoding.md R126) -/

/-- The wire primitives of a frame: none (a hold, 10_state.md R53), or one of 00_scope.md R14. -/
inductive Primitive (s : State) : State → Prop
  | hold : Primitive s s
  | csLow : Primitive s s.csLow
  | txnBegin : Primitive s s.txnBegin
  | xfer (tx : Byte) : Primitive s (s.xfer tx)
  | csHigh : Primitive s s.csHigh
  | csCut (u : FrameUse) : Primitive s (s.csCut u)
  | txnEnd : Primitive s s.txnEnd

/-- What follows a primitive in its step leaves the environment and the trace alone. -/
def SameWire (s t : State) : Prop := t.env = s.env ∧ t.trace = s.trace

theorem enterAddr_wire (u : FrameUse) (j : Nat) (s : State) : SameWire s (s.enterAddr u j) := by
  unfold State.enterAddr
  split
  · exact ⟨rfl, rfl⟩
  · split <;> exact ⟨rfl, rfl⟩

theorem compareByte_wire (u : FrameUse) (new rx : Byte) (s : State) : SameWire s (s.compareByte u new rx) := by
  unfold State.compareByte
  split <;> exact ⟨rfl, rfl⟩

theorem keepByte_wire (rx : Byte) (s : State) : SameWire s (s.keepByte rx) := by
  unfold State.keepByte
  split <;> exact ⟨rfl, rfl⟩

theorem afterFrame_wire (u : FrameUse) (s : State) : SameWire s (s.afterFrame u) := by
  cases u with
  | compare => simp only [State.afterFrame]; split <;> exact ⟨rfl, rfl⟩
  | _ => exact ⟨rfl, rfl⟩

theorem xferChk_primitive {u : FrameUse} {tx : Byte} {k : Byte → State → State} {s : State}
    (h : ∀ rx, SameWire (s.xfer tx) (k rx (s.xfer tx))) : ∃ p, Primitive s p ∧ SameWire p (s.xferChk u tx k) :=
  ⟨_, .xfer tx, State.xferChk_elim (P := SameWire (s.xfer tx)) (fun _ => h _) fun _ => ⟨rfl, rfl⟩⟩

theorem readData_primitive {u : FrameUse} {s t : State} (h : readData u s = .next t) : ∃ p, Primitive s p ∧ SameWire p t := by
  rcases readData_next h with ⟨rfl, -, rfl⟩ | ⟨rfl, new, -, rfl⟩
  · exact xferChk_primitive fun rx => keepByte_wire rx _
  · exact xferChk_primitive fun rx => compareByte_wire _ new rx _

theorem writeData_primitive {u : FrameUse} {s t : State} (h : writeData u s = .next t) :
    ∃ p, Primitive s p ∧ SameWire p t := by
  obtain ⟨b, -, rfl⟩ := writeData_next h
  exact xferChk_primitive fun _ => ⟨rfl, rfl⟩

theorem statusData_primitive {u : FrameUse} {s t : State} (h : statusData u s = .next t) :
    ∃ p, Primitive s p ∧ SameWire p t := by
  obtain rfl := statusData_next h
  exact xferChk_primitive fun _ => ⟨rfl, rfl⟩

theorem frameStep_primitive {op : Byte} {data : FrameUse → State → Res} {s t : State} (h : frameStep op data s = .next t)
    (hd : ∀ u, data u s = .next t → ∃ p, Primitive s p ∧ SameWire p t) : ∃ p, Primitive s p ∧ SameWire p t := by
  obtain ⟨u, pt, -, -, h⟩ := frameStep_next h
  rcases h with ⟨-, rfl⟩ | ⟨-, -, rfl⟩ | ⟨-, -, rfl⟩ | ⟨-, rfl⟩ | ⟨j, b, -, -, rfl⟩ | ⟨-, h⟩ | ⟨-, rfl⟩ | ⟨-, rfl⟩ | ⟨-, rfl⟩ |
    ⟨-, rfl⟩
  · exact ⟨_, .csLow, rfl, rfl⟩
  · exact ⟨_, .txnBegin, rfl, rfl⟩
  · exact ⟨_, .hold, rfl, rfl⟩
  · exact xferChk_primitive fun _ => enterAddr_wire u 0 _
  · exact xferChk_primitive fun _ => enterAddr_wire u (j + 1) _
  · exact hd u h
  · exact ⟨_, .csHigh, rfl, rfl⟩
  · exact ⟨_, .csCut u, rfl, rfl⟩
  · exact ⟨_, .txnEnd, afterFrame_wire u s.txnEnd⟩
  · exact ⟨_, .txnEnd, rfl, rfl⟩

/-- A wire opcode's step changes the environment and the trace as its one primitive does. -/
theorem wire_primitive {i : Instr} {s t : State} (hs : i.space = .wire) (h : exec i s = .next t) :
    ∃ p, Primitive s p ∧ SameWire p t := by
  cases i <;> simp only [Instr.space, reduceCtorEq] at hs
  case wireRead => exact frameStep_primitive h fun _ => readData_primitive
  case wireReadA8 => exact frameStep_primitive h fun _ => readData_primitive
  case wireWrite => exact frameStep_primitive h fun _ => writeData_primitive
  case wireWriteA8 => exact frameStep_primitive h fun _ => writeData_primitive
  case wireRdsr => exact frameStep_primitive h fun _ => statusData_primitive
  case wireWren => exact frameStep_primitive h fun _ h => absurd h noData_not_next
  case wireWrdi => exact frameStep_primitive h fun _ h => absurd h noData_not_next
  case wireWrsr => simp [exec, execWireWrsr] at h

theorem Primitive.canonical {s p : State} (h : Primitive s p) (hs : s.env.Canonical) : p.env.Canonical := by
  cases h with
  | csLow => exact hs.mapChip rfl rfl fun _ h => h
  | xfer tx => exact hs.afterXfer tx
  | csHigh => exact hs.mapChip rfl rfl fun _ => Responder.onCsHigh_wf s.cfg
  | csCut u => exact hs.cutShort s.cfg (s.frameRange u)
  | hold | txnBegin | txnEnd => exact hs

theorem exec_canonical {i : Instr} {s t : State} (h : exec i s = .next t) (hs : s.Canonical) : t.Canonical := by
  cases hi : i.space with
  | host => exact (command_next hi h).canonical hs
  | wire =>
    obtain ⟨p, hp, henv, -⟩ := wire_primitive hi h
    refine ⟨?_, henv ▸ hp.canonical hs.2⟩
    rcases (wire_next hi h).2.2 with hbuf | ⟨-, -, -, hbuf⟩ <;> rw [hbuf]
    · exact hs.1
    · exact Memory.set_wf _ _ hs.1

/-! ### The checked range (43_write.md R241, R246) -/

/-- The chip-select line of an idle block, and of a command at its checks (10_state.md R51). -/
def State.Rests (s : State) : Prop := s.cs = (if s.initDone then .high else .z)

/-- An initialised block outside a frame. -/
def State.Selectable (s : State) : Prop := s.initDone = true ∧ s.cs = .high

theorem State.Selectable.rests {s : State} (h : s.Selectable) : s.Rests := by simp [State.Rests, h.1, h.2]

theorem State.Rests.selectable {s : State} (h : s.Rests) (hi : s.initDone = true) : s.Selectable :=
  ⟨hi, by simpa [State.Rests, hi] using h⟩

/-- What `Inv` asks of the phase and the line, for a block that runs the command `i` unless it is idle. -/
def State.Placed (i : Instr) (s : State) : Prop :=
  (s.phase = .idle → s.Rests) ∧ (s.phase ≠ .idle → s.pointOk i s.phase)

theorem State.Placed.of_idle {i : Instr} {s : State} (hp : s.phase = .idle) (h : s.Rests) : s.Placed i :=
  ⟨fun _ => h, fun hn => absurd hp hn⟩

theorem State.Placed.of_point {i : Instr} {s : State} {p : Phase} (hp : s.phase = p) (hn : p ≠ .idle) (h : s.pointOk i p) :
    s.Placed i := by
  subst hp
  exact ⟨fun hi => absurd hi hn, fun _ => h⟩

/-- What `Inv` asks of a program point depends on the configuration, the operands, the cursor, `initDone` and the line. -/
theorem State.pointOk_congr {s t : State} (hcfg : t.cfg = s.cfg) (hlat : t.lat = s.lat) (hcur : t.cur = s.cur)
    (hinit : t.initDone = s.initDone) (hcs : t.cs = s.cs) (i : Instr) (p : Phase) : t.pointOk i p ↔ s.pointOk i p := by
  cases s; cases t; dsimp only at hcfg hlat hcur hinit hcs; subst hcfg hlat hcur hinit hcs; rfl

/-- The checked range a frame uses. -/
def State.useOk (s : State) : FrameUse → Prop
  | .status | .wrenCmd | .wrdi => True
  | .poll r => s.rangeOk r
  | .wrenSeq | .write => s.rangeOk .write
  | .read => s.rangeOk .read
  | .compare => s.rangeOk .compare

/-- The index of a frame at a program point. -/
def State.indexOk (s : State) (u : FrameUse) : FramePoint → Prop
  | .addr j => j < (s.frameAddr u).length
  | .data => u.hasData = true ∧ (u = .read ∨ u = .compare ∨ u = .write → s.cur.i < s.frameLen u) ∧
      (u = .compare → s.cur.k = s.cur.segLen)
  | .csHigh false | .txnEnd false => u = .compare → s.cur.k ≤ s.cur.segLen
  | .csLow | .txnBegin | .opcode | .csHigh true | .txnEnd true => True

theorem State.frameOk_iff (s : State) (u : FrameUse) (pt : FramePoint) : s.frameOk u pt ↔ s.useOk u ∧ s.indexOk u pt := by
  cases u <;> rfl

/-- A command of an initialised block that waits for `r`, its range checked. -/
def State.Waits (i : Instr) (r : WaitRet) (s : State) : Prop := s.initDone = true ∧ waitsFor i r = true ∧ s.rangeOk r

/-- A command of an initialised block that sends the frame `u`, its range checked. -/
def State.Sends (i : Instr) (u : FrameUse) (s : State) : Prop := s.initDone = true ∧ sends i u = true ∧ s.useOk u

theorem bus_of_isRead {i : Instr} (h : isRead i = true) : isBusCommand i = true := by
  cases i <;> simp [isRead, isBusCommand] at h ⊢

theorem bus_of_isWrite {i : Instr} (h : isWrite i = true) : isBusCommand i = true := by
  cases i <;> simp [isWrite, isBusCommand] at h ⊢

theorem bus_of_isUpdate {i : Instr} (h : isUpdate (some i) = true) : isBusCommand i = true := by
  cases i <;> simp [isUpdate, isBusCommand] at h ⊢

theorem bus_of_waitsFor {i : Instr} {r : WaitRet} (h : waitsFor i r = true) : isBusCommand i = true := by
  cases r with
  | read => exact bus_of_isRead h
  | write => exact (Bool.or_eq_true_iff.1 h).elim bus_of_isWrite bus_of_isUpdate
  | compare => exact bus_of_isUpdate h

theorem bus_of_sends {i : Instr} {u : FrameUse} (h : sends i u = true) : isBusCommand i = true := by
  cases u with
  | poll r => exact bus_of_waitsFor h
  | read => exact bus_of_waitsFor (r := .read) h
  | compare => exact bus_of_waitsFor (r := .compare) h
  | wrenSeq | write => exact bus_of_waitsFor (r := .write) h
  | status => rcases of_decide_eq_true h with rfl | rfl <;> rfl
  | wrenCmd | wrdi => obtain rfl := of_decide_eq_true h; rfl

/-! ### Going to a program point -/

theorem State.Sends.goto_frame {i : Instr} {u : FrameUse} {pt : FramePoint} {s : State} (h : s.Sends i u) (hcs : s.cs = pt.csLine)
    (hidx : s.indexOk u pt) : (s.goto (.frame u pt)).Placed i := by
  obtain ⟨hinit, hsends, hrange⟩ := h
  exact State.Placed.of_point rfl nofun ((State.pointOk_congr rfl rfl rfl rfl rfl i _).2
    ⟨hinit, hcs, hsends, (s.frameOk_iff u pt).2 ⟨hrange, hidx⟩⟩)

/-- The first poll of a wait, and each later one. -/
theorem State.Waits.poll {i : Instr} {r : WaitRet} {s : State} (h : s.Waits i r) : s.Sends i (.poll r) := h

/-- After a wait the frame it waited for is sent. -/
theorem State.Waits.use {i : Instr} {r : WaitRet} {s : State} (h : s.Waits i r) : s.Sends i r.use := by
  obtain ⟨hinit, hwaits, hrange⟩ := h
  cases r <;> exact ⟨hinit, hwaits, hrange⟩

theorem State.Waits.goto_wait {i : Instr} {r : WaitRet} {s : State} {p : Phase} (h : s.Waits i r) (hcs : s.cs = .high)
    (hp : p = .waitT0 r ∨ p = .pollT r ∨ p = .pollY r) : (s.goto p).Placed i := by
  obtain ⟨hinit, hwaits, hrange⟩ := h
  rcases hp with rfl | rfl | rfl <;>
    exact State.Placed.of_point rfl nofun ((State.pointOk_congr rfl rfl rfl rfl rfl i _).2 ⟨hinit, hcs, hwaits, hrange⟩)

theorem goto_complete_placed {i : Instr} {s : State} (hs : s.Selectable) (hi : isBusCommand i = true) :
    (s.goto .complete).Placed i :=
  State.Placed.of_point rfl nofun ⟨hs.1, hs.2, hi⟩

theorem goto_failing_placed {i : Instr} {c : ErrCode} {s : State} (hs : s.Selectable) (hi : isBusCommand i = true)
    (hc : c = .timeout ∨ c = .bus) : (s.goto (.failing c)).Placed i :=
  State.Placed.of_point rfl nofun ⟨hs.1, hs.2, hi, hc⟩

/-- A cursor that differs in no field that a checked range looks at. -/
def Cursor.SameRange (c d : Cursor) : Prop := d = { c with i := d.i, waitStart := d.waitStart, sr := d.sr, d := d.d }

theorem State.useOk_setCur {c : Cursor} {s : State} (h : s.cur.SameRange c) (u : FrameUse) :
    (s.setCur c).useOk u ↔ s.useOk u := by
  rw [h]
  cases u with
  | poll r => cases r <;> rfl
  | _ => rfl

theorem State.Sends.setCur {i : Instr} {u : FrameUse} {c : Cursor} {s : State} (h : s.Sends i u) (hc : s.cur.SameRange c) :
    (s.setCur c).Sends i u :=
  h.imp id (And.imp id (State.useOk_setCur hc u).2)

/-- The start of a wait stores its first reading, which no check looks at. -/
theorem State.Waits.startWait_placed {i : Instr} {r : WaitRet} {s : State} (h : s.Waits i r) (hcs : s.cs = .high) :
    (s.startWait r).Placed i :=
  State.Sends.goto_frame (s := s.now.setCur { s.cur with waitStart := s.nowValue }) ((State.Waits.poll h).setCur (by rfl)) hcs
    trivial

/-! ### Frames (30_encoding.md R126) -/

theorem State.Sends.enterAddr_placed {i : Instr} {u : FrameUse} {s : State} (h : s.Sends i u) (hcs : s.cs = .low) (j : Nat) :
    (s.enterAddr u j).Placed i := by
  unfold State.enterAddr
  split
  · exact h.goto_frame hcs ‹_›
  · split
    · obtain ⟨hinit, hsends, hrange⟩ := h
      refine State.Sends.goto_frame (pt := .data) ⟨hinit, hsends, ?_⟩ hcs ⟨‹_›, ?_, ?_⟩
      · cases u with
        | poll r => cases r <;> exact hrange
        | _ => exact hrange
      · rintro (rfl | rfl | rfl)
        · exact hrange.1
        · exact hrange.1
        · exact Nat.sub_pos_of_lt hrange.2
      · rintro rfl; rfl
    · exact h.goto_frame hcs (by rintro rfl; simp [FrameUse.hasData] at *)

theorem State.Sends.nextData_placed {i : Instr} {u : FrameUse} {s : State} (h : s.Sends i u) (hcs : s.cs = .low)
    (hidx : s.indexOk u .data) : (s.nextData u).Placed i := by
  obtain ⟨hdata, -, hk⟩ := hidx
  unfold State.nextData
  split
  · refine (h.setCur (by rfl)).goto_frame hcs ⟨hdata, ?_, hk⟩
    rintro (rfl | rfl | rfl) <;> assumption
  · exact (h.setCur (by rfl)).goto_frame hcs fun hu => (hk hu).le

/-- A transfer that fails leads to the closing of its frame, whatever it was for. -/
theorem State.Sends.xferChk_placed {i : Instr} {u : FrameUse} {tx : Byte} {k : Byte → State → State} {s : State}
    (h : s.Sends i u) (hcs : s.cs = .low) (hk : ∀ rx, (k rx (s.xfer tx)).Placed i) : (s.xferChk u tx k).Placed i :=
  State.xferChk_elim (P := State.Placed i) (fun _ => hk _) fun _ =>
    State.Sends.goto_frame (pt := .csHigh true) (s := s.xfer tx) h hcs trivial

theorem State.Sends.statusData_placed {i : Instr} {u : FrameUse} {s t : State} (h : s.Sends i u) (hcs : s.cs = .low)
    (hidx : s.indexOk u .data) (ht : statusData u s = .next t) : t.Placed i := by
  obtain ⟨-, -, hk⟩ := hidx
  rw [statusData_next ht]
  exact h.xferChk_placed hcs fun rx =>
    State.Sends.goto_frame (State.Sends.setCur (s := s.xfer _) h (by rfl)) hcs fun hu => (hk hu).le

theorem State.Sends.keepByte_placed {i : Instr} {s : State} (h : s.Sends i .read) (hcs : s.cs = .low)
    (hidx : s.indexOk .read .data) (rx : Byte) : ((s.keepByte rx).nextData .read).Placed i := by
  unfold State.keepByte
  split
  · exact (h.setCur (by rfl)).nextData_placed hcs hidx
  · exact State.Sends.nextData_placed (s := s.bufWrite s.cur.i rx) h hcs hidx

theorem State.Sends.compareByte_placed {i : Instr} {s : State} (h : s.Sends i .compare) (hcs : s.cs = .low)
    (hidx : s.indexOk .compare .data) (new rx : Byte) : (s.compareByte .compare new rx).Placed i := by
  unfold State.compareByte
  split
  · exact h.nextData_placed hcs hidx
  · obtain ⟨-, hi, -⟩ := hidx
    exact State.Sends.goto_frame (pt := .csHigh false) (s := s.setCur { s.cur with k := s.cur.i }) h hcs
      fun _ => (hi (by simp)).le

theorem State.Sends.readData_placed {i : Instr} {u : FrameUse} {s t : State} (h : s.Sends i u) (hcs : s.cs = .low)
    (hidx : s.indexOk u .data) (ht : readData u s = .next t) : t.Placed i := by
  rcases readData_next ht with ⟨rfl, -, rfl⟩ | ⟨rfl, new, -, rfl⟩
  · exact h.xferChk_placed hcs fun rx => State.Sends.keepByte_placed (s := s.xfer _) h hcs hidx rx
  · exact h.xferChk_placed hcs fun rx => State.Sends.compareByte_placed (s := s.xfer _) h hcs hidx new rx

theorem State.Sends.writeData_placed {i : Instr} {u : FrameUse} {s t : State} (h : s.Sends i u) (hcs : s.cs = .low)
    (hidx : s.indexOk u .data) (ht : writeData u s = .next t) : t.Placed i := by
  obtain ⟨b, -, rfl⟩ := writeData_next ht
  exact h.xferChk_placed hcs fun _ => State.Sends.nextData_placed (s := s.xfer b) h hcs hidx

/-! ### The page splitter (43_write.md R244 to R246) -/

/-- The segment after one that is not the last: it starts a page, so it fits in it, and the rest of the request fits as before. -/
theorem State.segOk_advance {s : State} (hv : s.cfg.valid = true) (h : s.segOk) (hrem : s.cur.rem - s.cur.segLen ≠ 0) :
    (s.setCur (s.cur.advance s.cfg.page)).segOk := by
  obtain ⟨h1, hle, hcap, hpage, hnext, hbuf⟩ := h
  have hP := (valid_page hv).1
  have hstart := hnext (by omega)
  refine ⟨?_, ?_, ?_, ?_, ?_, ?_⟩ <;> simp only [State.setCur_cur, State.setCur_cfg, State.setCur_command, Cursor.advance]
  · omega
  · exact Nat.min_le_right _ _
  · omega
  · rw [hstart]; omega
  · intro hlt
    rw [show min s.cfg.page (s.cur.rem - s.cur.segLen) = s.cfg.page by omega, Nat.add_mod_right]
    exact hstart
  · intro hb
    have := hbuf hb
    omega

theorem State.segOk.pageCheck {s : State} (h : s.segOk) : pageCheck s.cfg s.cur.segAddr s.cur.segLen = true := by
  obtain ⟨-, hle, hcap, hpage, -, -⟩ := h
  exact decide_eq_true ⟨by omega, hpage⟩

/-- A segment that is checked, and of which nothing is compared yet, is waited for as its command asks (R240, R270). -/
theorem State.segOk.waits {i : Instr} {s : State} (hcmd : s.command = some i) (hinit : s.initDone = true)
    (hi : isWrite i = true ∨ isUpdate (some i) = true) (h : s.segOk) (hk : s.cur.k < s.cur.segLen) : s.Waits i s.segWait := by
  unfold State.segWait
  rw [hcmd]
  cases hu : isUpdate (some i) with
  | true => exact ⟨hinit, hu, h⟩
  | false => exact ⟨hinit, by simpa [waitsFor, hu] using hi, h, hk⟩

theorem nextSegment_placed {i : Instr} {s : State} (hv : s.cfg.valid = true) (hcmd : s.command = some i) (hs : s.Selectable)
    (hi : isWrite i = true ∨ isUpdate (some i) = true) (hseg : s.segOk) : s.nextSegment.Placed i := by
  unfold State.nextSegment
  dsimp only
  split
  · refine goto_complete_placed hs (bus_of_waitsFor (r := .write) ?_)
    simpa [waitsFor] using hi
  · have hnext := State.segOk_advance hv hseg ‹_›
    have hcheck : Machine.pageCheck s.cfg (s.cur.advance s.cfg.page).segAddr (s.cur.advance s.cfg.page).segLen = true :=
      hnext.pageCheck
    rw [if_pos hcheck]
    exact State.Waits.goto_wait (State.segOk.waits hcmd hs.1 hi hnext hnext.1) hs.2 (.inl rfl)

theorem State.Sends.afterFrame_placed {i : Instr} {u : FrameUse} {s : State} (hv : s.cfg.valid = true)
    (hcmd : s.command = some i) (h : s.Sends i u) (hcs : s.cs = .high) (hidx : s.indexOk u (.txnEnd false)) :
    (s.afterFrame u).Placed i := by
  obtain ⟨hinit, hsends, hrange⟩ := h
  have hs : s.Selectable := ⟨hinit, hcs⟩
  cases u with
  | status | wrenCmd | wrdi | read => exact goto_complete_placed hs (bus_of_sends hsends)
  | poll r =>
    have hw : s.Waits i r := ⟨hinit, hsends, hrange⟩
    simp only [State.afterFrame, State.afterPoll]
    split
    · exact hw.use.goto_frame hcs trivial
    · exact hw.goto_wait hcs (.inr (.inl rfl))
  | wrenSeq => exact State.Sends.goto_frame ⟨hinit, hsends, hrange⟩ hcs trivial
  | compare =>
    have hu : isUpdate (some i) = true := hsends
    simp only [State.afterFrame]
    split
    · exact nextSegment_placed hv hcmd hs (.inr hu) hrange
    · have hk : s.cur.k < s.cur.segLen := lt_of_le_of_ne (hidx rfl) ‹_›
      exact State.Waits.goto_wait (r := .write) ⟨hinit, by simp [waitsFor, hu], hrange, hk⟩ hcs (.inl rfl)
  | write => exact nextSegment_placed hv hcmd hs (by simpa [Machine.sends] using hsends) hrange.1

/-- A step of a frame of the command `i`, whose data phase keeps to the program points. -/
theorem frameStep_placed {i : Instr} {op : Byte} {data : FrameUse → State → Res} {s t : State} (hv : s.cfg.valid = true)
    (hcmd : s.command = some i) (hs : s.Placed i) (ht : frameStep op data s = .next t)
    (hd : ∀ u, s.Sends i u → s.cs = .low → s.indexOk u .data → data u s = .next t → t.Placed i) : t.Placed i := by
  obtain ⟨u, pt, hp, -, hcase⟩ := frameStep_next ht
  have hpoint := hs.2 (by simp [hp])
  rw [hp] at hpoint
  obtain ⟨hinit, hcs, hsends, hframe⟩ := hpoint
  obtain ⟨hrange, hidx⟩ := (s.frameOk_iff u pt).1 hframe
  have h : s.Sends i u := ⟨hinit, hsends, hrange⟩
  rcases hcase with ⟨rfl, rfl⟩ | ⟨rfl, -, rfl⟩ | ⟨rfl, -, rfl⟩ | ⟨rfl, rfl⟩ | ⟨j, b, rfl, -, rfl⟩ | ⟨rfl, hdata⟩ | ⟨rfl, rfl⟩ |
    ⟨rfl, rfl⟩ | ⟨rfl, rfl⟩ | ⟨rfl, rfl⟩
  · exact State.Sends.goto_frame (s := s.csLow) h rfl trivial
  · exact State.Sends.goto_frame (s := s.txnBegin) h hcs trivial
  · exact hs
  · exact h.xferChk_placed hcs fun _ => State.Sends.enterAddr_placed (s := s.xfer op) h hcs 0
  · exact h.xferChk_placed hcs fun _ => State.Sends.enterAddr_placed (s := s.xfer b) h hcs (j + 1)
  · exact hd u h hcs hidx hdata
  · exact State.Sends.goto_frame (pt := .txnEnd false) (s := s.csHigh) h rfl hidx
  · exact State.Sends.goto_frame (pt := .txnEnd true) (s := s.csCut u) h rfl trivial
  · exact State.Sends.afterFrame_placed (s := s.txnEnd) hv hcmd h hcs hidx
  · exact goto_failing_placed (s := s.txnEnd) ⟨hinit, hcs⟩ (bus_of_sends hsends) (.inr rfl)

theorem wire_placed {i j : Instr} {s t : State} (hv : s.cfg.valid = true) (hcmd : s.command = some i) (hs : s.Placed i)
    (hj : j.space = .wire) (ht : exec j s = .next t) : t.Placed i := by
  cases j <;> simp only [Instr.space, reduceCtorEq] at hj
  case wireRead => exact frameStep_placed hv hcmd hs ht fun _ => State.Sends.readData_placed
  case wireReadA8 => exact frameStep_placed hv hcmd hs ht fun _ => State.Sends.readData_placed
  case wireWrite => exact frameStep_placed hv hcmd hs ht fun _ => State.Sends.writeData_placed
  case wireWriteA8 => exact frameStep_placed hv hcmd hs ht fun _ => State.Sends.writeData_placed
  case wireRdsr => exact frameStep_placed hv hcmd hs ht fun _ => State.Sends.statusData_placed
  case wireWren => exact frameStep_placed hv hcmd hs ht fun _ _ _ _ h => absurd h noData_not_next
  case wireWrdi => exact frameStep_placed hv hcmd hs ht fun _ _ _ _ h => absurd h noData_not_next
  case wireWrsr => simp [exec, execWireWrsr] at ht

/-! ### The first step of a command (60_exceptions.md R304) -/

theorem requireInit_placed {i : Instr} {s : State} {k : State → State} (hs : s.Rests)
    (hk : s.Selectable → (k s).Placed i) : (s.requireInit k).Placed i := by
  unfold State.requireInit
  split
  · exact hk (hs.selectable ‹_›)
  · exact State.Placed.of_idle rfl hs

theorem requireThat_placed {i : Instr} {b : Bool} {s : State} {k : State → State} (hs : s.Selectable)
    (hk : b = true → (k s).Placed i) : (s.requireThat b k).Placed i := by
  unfold State.requireThat
  split
  · exact hk ‹_›
  · exact State.Placed.of_idle rfl hs.rests

theorem requireBuf_placed {i : Instr} {s : State} {k : State → State} (hs : s.Selectable)
    (hk : s.cLen ≤ s.cfg.bufBytes → (k s).Placed i) : (s.requireBuf k).Placed i := by
  unfold State.requireBuf
  split
  · exact State.Placed.of_idle rfl hs.rests
  · exact hk (Nat.le_of_not_lt ‹_›)

theorem unlessEmpty_placed {i : Instr} {s : State} {k : State → State} (hs : s.Selectable)
    (hk : 1 ≤ s.cLen → (k s).Placed i) : (s.unlessEmpty k).Placed i := by
  unfold State.unlessEmpty
  split
  · exact State.Placed.of_idle rfl hs.rests
  · exact hk (Nat.one_le_iff_ne_zero.2 ‹_›)

theorem openFrame_placed {i : Instr} {u : FrameUse} {s : State} (hs : s.Selectable) (hu : sends i u = true)
    (hrange : s.useOk u) : (s.openFrame u).Placed i :=
  State.Sends.goto_frame (s := s.csLow) ⟨hs.1, hu, hrange⟩ rfl trivial

theorem beginSegments_placed {i : Instr} {a len n : Nat} {s : State} (hcmd : s.command = some i) (hs : s.Selectable)
    (hi : isWrite i = true ∨ isUpdate (some i) = true) (hseg : (s.firstSegment a len n).segOk) :
    (s.beginSegments a len n).Placed i := by
  unfold State.beginSegments
  dsimp only
  split
  · exact State.Waits.startWait_placed (s := (s.firstSegment a len n).setEnv s.env.keepBefore)
      (State.segOk.waits (s := s.firstSegment a len n) hcmd hs.1 hi hseg hseg.1) hs.2
  · exact State.Placed.of_idle rfl hs.rests

/-- A page command: PageCheck puts its one segment in one page. -/
theorem pageSegment_ok {n : Nat} {s : State} (hcheck : pageCheck s.cfg s.cAddr n = true) (hn : 1 ≤ n)
    (hbuf : isByteCommand s.command = false → n ≤ s.cfg.bufBytes) : (s.firstSegment s.cAddr n n).segOk := by
  obtain ⟨hcap, hpage⟩ := of_decide_eq_true hcheck
  exact ⟨hn, le_rfl, hcap, hpage, fun h => absurd h (lt_irrefl n), fun hb => by simpa [State.firstSegment] using hbuf hb⟩

/-- A block command: its first segment ends with its page, or with the request. -/
theorem blockSegment_ok {n : Nat} {s : State} (hv : s.cfg.valid = true) (hcheck : inRange s.cfg s.cAddr n = true) (hn : 1 ≤ n)
    (hbuf : n ≤ s.cfg.bufBytes) : (s.firstSegment s.cAddr (firstSegLen s.cfg s.cAddr n) n).segOk := by
  obtain ⟨hpage, hlen, hnext⟩ := firstSeg_fits (a := s.cAddr) (valid_page hv).1 hn
  exact ⟨hlen, Nat.min_le_right _ _, of_decide_eq_true hcheck, hpage, hnext,
    fun _ => by simpa [State.firstSegment] using hbuf⟩

/-- A byte command: its one byte is in one page. -/
theorem byteSegment_ok {s : State} (hv : s.cfg.valid = true) (hcheck : inRange s.cfg s.cAddr 1 = true)
    (hbyte : isByteCommand s.command = true) : (s.firstSegment s.cAddr 1 1).segOk :=
  pageSegment_ok (decide_eq_true ⟨of_decide_eq_true hcheck, Nat.mod_lt _ (valid_page hv).1⟩) le_rfl fun hb => by
    simp [hbyte] at hb

theorem runPin_check {body done : State → State} {s t : State} (hp : s.phase = .check) (h : runPin body done s = .next t) :
    t = body s := by
  simpa [runPin, hp] using h.symm

theorem runFrames_check {body done : State → State} {s t : State} (hp : s.phase = .check)
    (h : runFrames body done s = .next t) : t = body s := by
  simpa [runFrames, hp] using h.symm

theorem runWaiting_check {body done : State → State} {s t : State} (hp : s.phase = .check)
    (h : runWaiting body done s = .next t) : t = body s := by
  simpa [runWaiting, hp] using h.symm

/-- The checks of a command establish what its first program point asks (R304, R305, R308, R310). -/
theorem check_placed {i : Instr} {s t : State} (hv : s.cfg.valid = true) (hcmd : s.command = some i) (hi : i.space = .host)
    (hs : s.Rests) (hp : s.phase = .check) (ht : exec i s = .next t) : t.Placed i := by
  cases i <;> simp only [Instr.space, reduceCtorEq] at hi <;>
    simp only [exec, execInit, execDeinit, execGetCapacity, execGetPageSize, execReadStatus, execIsReady, execWriteEnable,
      execWriteDisable, execReadByte, execReadBlock, execWriteByte, execWriteBlock, execWritePage, execUpdateByte,
      execUpdateBlock, execUpdatePage] at ht
  case init =>
    obtain rfl := runPin_check hp ht
    exact State.Placed.of_point rfl nofun (.inl ⟨rfl, rfl⟩)
  case deinit =>
    obtain rfl := runPin_check hp ht
    exact State.Placed.of_point rfl nofun (.inr ⟨rfl, rfl⟩)
  case getCapacity | getPageSize =>
    obtain ⟨-, rfl⟩ := runAtOnce_next ht
    exact State.Placed.of_idle rfl hs
  case readStatus | isReady | writeEnable | writeDisable =>
    obtain rfl := runFrames_check hp ht
    exact requireInit_placed hs fun hsel => openFrame_placed hsel rfl trivial
  all_goals obtain rfl := runWaiting_check hp ht
  case readByte =>
    refine requireInit_placed hs fun hsel => requireThat_placed hsel fun hr =>
      State.Waits.startWait_placed ⟨hsel.1, rfl, ?_⟩ hsel.2
    have hb : isByteCommand s.command = true := by rw [hcmd]; rfl
    simpa [State.rangeOk, State.readOk, State.readLen, hb] using of_decide_eq_true hr
  case readBlock =>
    refine requireInit_placed hs fun hsel => requireThat_placed hsel fun hr => requireBuf_placed hsel fun hbuf =>
      unlessEmpty_placed hsel fun hn => State.Waits.startWait_placed ⟨hsel.1, rfl, ?_⟩ hsel.2
    have hb : isByteCommand s.command = false := by rw [hcmd]; rfl
    simpa [State.rangeOk, State.readOk, State.readLen, hb] using ⟨hn, of_decide_eq_true hr, hbuf⟩
  case writeByte | updateByte =>
    exact requireInit_placed hs fun hsel => requireThat_placed hsel fun hr =>
      beginSegments_placed hcmd hsel (by simp [isWrite, isUpdate]) (byteSegment_ok hv hr (by rw [hcmd]; rfl))
  case writeBlock | updateBlock =>
    exact requireInit_placed hs fun hsel => requireThat_placed hsel fun hr => requireBuf_placed hsel fun hbuf =>
      unlessEmpty_placed hsel fun hn =>
        beginSegments_placed hcmd hsel (by simp [isWrite, isUpdate]) (blockSegment_ok hv hr hn hbuf)
  case writePage | updatePage =>
    exact requireInit_placed hs fun hsel => requireThat_placed hsel fun hr => requireBuf_placed hsel fun hbuf =>
      unlessEmpty_placed hsel fun hn =>
        beginSegments_placed hcmd hsel (by simp [isWrite, isUpdate]) (pageSegment_ok hr hn fun _ => hbuf)

/-! ### Every instruction -/

/-- A step of a command outside its frames. -/
theorem command_placed {i : Instr} {s t : State} (hv : s.cfg.valid = true) (hcmd : s.command = some i) (hi : i.space = .host)
    (hs : s.Placed i) (ht : exec i s = .next t) : t.Placed i := by
  have point : ∀ {p}, s.phase = p → p ≠ .idle → s.pointOk i p := fun hp hn => hp ▸ hs.2 (hp ▸ hn)
  cases command_next hi ht with
  | check hp => exact check_placed hv hcmd hi (point hp nofun) hp ht
  | initPin hi' hp | deinitPin hi' hp => exact check_placed hv hcmd hi (point hp nofun) hp ht
  | initEnd hi' hp =>
    rcases point hp nofun with ⟨-, hcs⟩ | ⟨rfl, -⟩
    · exact State.Placed.of_idle rfl hcs
    · exact nomatch hi'
  | deinitEnd hi' hp =>
    rcases point hp nofun with ⟨rfl, -⟩ | ⟨-, hcs⟩
    · exact nomatch hi'
    · exact State.Placed.of_idle rfl hcs
  | waitT0 r hp =>
    obtain ⟨hinit, hcs, hwaits, hrange⟩ := point hp nofun
    exact State.Waits.startWait_placed ⟨hinit, hwaits, hrange⟩ hcs
  | pollT r hp =>
    obtain ⟨hinit, hcs, hwaits, hrange⟩ := point hp nofun
    unfold State.pollTime
    split
    · exact goto_failing_placed (s := s.now) ⟨hinit, hcs⟩ (bus_of_waitsFor hwaits) (.inl rfl)
    · exact State.Waits.goto_wait (s := s.now) ⟨hinit, hwaits, hrange⟩ hcs (.inr (.inr rfl))
  | pollY r hp =>
    obtain ⟨hinit, hcs, hwaits, hrange⟩ := point hp nofun
    exact State.Sends.goto_frame (s := s.yieldStep) ⟨hinit, hwaits, hrange⟩ hcs trivial
  | complete n hp =>
    obtain ⟨hinit, hcs, -⟩ := point hp nofun
    exact State.Placed.of_idle rfl (State.Selectable.rests ⟨hinit, hcs⟩)
  | completeRdata v n _ hp =>
    obtain ⟨hinit, hcs, -⟩ := point hp nofun
    exact State.Placed.of_idle rfl (State.Selectable.rests ⟨hinit, hcs⟩)
  | failing c hp =>
    obtain ⟨hinit, hcs, -⟩ := point hp nofun
    exact State.Placed.of_idle rfl (State.Selectable.rests ⟨hinit, hcs⟩)

/-! ### The invariant -/

theorem Inv.canonical {s : State} (h : Inv s) : s.Canonical := ⟨h.buf, h.chip, h.before⟩

theorem Inv.of_placed {i : Instr} {s : State} (hv : s.cfg.valid = true) (hm : s.Canonical)
    (hi : hostInstr s.cfg s.lat.code = some i) (hs : s.Placed i) : Inv s where
  cfg := hv
  buf := hm.1
  chip := hm.2.chip
  before := hm.2.before
  idle := hs.1
  running := fun hn => ⟨i, hi, hs.2 hn⟩

theorem Inv.of_idle {s : State} (hv : s.cfg.valid = true) (hm : s.Canonical) (hp : s.phase = .idle) (hs : s.Rests) : Inv s where
  cfg := hv
  buf := hm.1
  chip := hm.2.chip
  before := hm.2.before
  idle := fun _ => hs
  running := fun hn => absurd hp hn

/-- A change of the registers, the fault record, the host's data, BUF and the schedule, which the host makes at any time. -/
theorem Inv.congr {s t : State} (h : Inv s) (hm : t.Canonical) (hcfg : t.cfg = s.cfg) (hphase : t.phase = s.phase)
    (hlat : t.lat = s.lat) (hcur : t.cur = s.cur) (hinit : t.initDone = s.initDone) (hcs : t.cs = s.cs) : Inv t where
  cfg := hcfg ▸ h.cfg
  buf := hm.1
  chip := hm.2.chip
  before := hm.2.before
  idle := by rw [hphase, hcs, hinit]; exact h.idle
  running := by
    rw [hphase, hcfg, hlat]
    simpa only [State.pointOk_congr hcfg hlat hcur hinit hcs] using h.running

theorem Inv.setSched {s : State} (h : Inv s) (r : List Event) : Inv (s.setSched r) :=
  h.congr ⟨h.buf, h.chip, h.before⟩ rfl rfl rfl rfl rfl rfl

theorem Inv.hostKeeps {s t : State} (h : Inv s) (hk : HostKeeps s t) (hbuf : Memory.wf t.buf = true) : Inv t :=
  h.congr ⟨hbuf, hk.env ▸ h.canonical.2⟩ hk.cfg hk.phase hk.lat hk.cur hk.initDone hk.cs

theorem hostWrite_wf {a : Nat} {lanes : List Byte} {s : State} (h : Memory.wf s.buf = true) :
    Memory.wf (s.hostWrite a lanes).buf = true := by
  unfold State.hostWrite
  split
  · unfold State.writeReg
    repeat' split
    all_goals exact h
  · split
    · exact h
    · exact Memory.set_wf _ _ h
  · exact h

theorem hostRead_buf (a size : Nat) (s : State) : (s.hostRead a size).buf = s.buf := by
  unfold State.hostRead
  dsimp only
  split
  · split <;> rfl
  · rfl
  · rfl

/-- The state the sequencer steps from differs in the schedule alone. -/
theorem Moves.eq_setSched {s q : State} (h : Moves s q) : ∃ r, q = s.setSched r := by
  rcases h with rfl | ⟨r, -, rfl⟩
  · exact ⟨q.env.sched, rfl⟩
  · exact ⟨r, rfl⟩

/-- The fetched instruction keeps the invariant: the running command between its frames, a wire opcode inside one. -/
theorem Inv.exec {j : Instr} {s t : State} (h : Inv s) (hp : s.phase ≠ .idle) (hf : fetch s = some j)
    (ht : exec j s = .next t) : Inv t := by
  obtain ⟨i, hi, hpoint⟩ := h.running hp
  have hs : s.Placed i := ⟨fun hidle => absurd hidle hp, fun _ => hpoint⟩
  have hcmd : s.command = some i := (hostInstr_decodes hi).1
  have heff := exec_next ht
  refine Inv.of_placed (i := i) (heff.cfg ▸ h.cfg) (exec_canonical ht h.canonical) (heff.cfg ▸ heff.lat ▸ hi) ?_
  cases hj : j.space with
  | wire => exact wire_placed h.cfg hcmd hs hj ht
  | host =>
    obtain rfl : j = i := Option.some.inj ((fetch_host hf hj).2.symm.trans hi)
    exact command_placed h.cfg hcmd hj hs ht

/-- A started command is at its checks, with the line as while idle (60_exceptions.md R301). -/
theorem Inv.start {i : Instr} {v : Word} {s : State} (h : Inv s) (hp : s.phase = .idle)
    (hi : hostInstr s.cfg (v.setWidth 8) = some i) : Inv (s.start v) :=
  Inv.of_placed h.cfg h.canonical hi (State.Placed.of_point rfl nofun (h.idle hp))

theorem Inv.warmReset {s : State} (h : Inv s) : Inv s.warmReset := by
  have he : (if s.busy then s.env.abandon s.writeRange else s.env).Canonical := by
    split
    · exact h.canonical.2.abandon s.writeRange
    · exact h.canonical.2
  exact inv_afterReset h.cfg he.chip he.before

/-- Settles O51, by cases on who moves; the sequencer's steps by what each program point asks of the next one. -/
theorem invariantIsKept : Obligations.InvariantIsKept := by
  intro s t h ht
  cases (step_next ht).2 with
  | idle q hq =>
    obtain ⟨r, rfl⟩ := hq.eq_setSched
    exact h.setSched r
  | run q i hq hp hf he =>
    obtain ⟨r, rfl⟩ := hq.eq_setSched
    exact (h.setSched r).exec hp hf he
  | start r op v i _ _ hp hi he => exact ((h.setSched r).start hp hi).exec nofun hi he
  | illegal r op v _ _ hp => exact Inv.of_idle h.cfg ⟨h.buf, h.chip, h.before⟩ rfl (h.idle hp)
  | busyCmd r | bus r => exact h.congr ⟨h.buf, h.chip, h.before⟩ rfl rfl rfl rfl rfl rfl
  | write r a lanes => exact (h.setSched r).hostKeeps (hostWrite_keeps a lanes _) (hostWrite_wf h.buf)
  | read r a n => exact (h.setSched r).hostKeeps (hostRead_keeps a n _) ((hostRead_buf a n _).symm ▸ h.buf)
  | readStatus r => exact (h.setSched r).hostKeeps (hostRead_keeps _ 4 _) ((hostRead_buf _ 4 _).symm ▸ h.buf)
  | reset r => exact (h.setSched r).warmReset

end Sys2Proof.Machine
end

section
/-! PROOFS. The computed views STATUS and SR_FIELDS (spec/10_state.md R39, R43, R45), and the byte memory (spec/20_memory.md R81). -/

namespace Sys2Proof.Machine

/-! ### STATUS and SR_FIELDS -/

theorem busy_eq (s : State) : s.busy = decide (s.phase ≠ .idle) := by
  unfold State.busy
  split <;> simp_all

theorem statusWord_initDone (s : State) : s.statusWord.getLsbD 1 = s.initDone := by
  simp only [State.statusWord, BitVec.getLsbD_append]
  simp

theorem statusWord_err (s : State) : s.statusWord.extractLsb' 4 3 = s.regs.err.code := by
  simp only [State.statusWord, BitVec.extractLsb'_append_eq_of_le, BitVec.extractLsb'_append_eq_right, Nat.reduceSub,
    Nat.reduceLeDiff]

theorem statusWord_fcause (s : State) : s.statusWord.extractLsb' 8 3 = fcauseBits s.fault := by
  simp only [State.statusWord, BitVec.extractLsb'_append_eq_of_le, BitVec.extractLsb'_append_eq_right, Nat.reduceSub,
    Nat.reduceLeDiff]

theorem statusWord_reserved (s : State) : s.statusWord.extractLsb' 11 21 = 0 := by
  simp only [State.statusWord, BitVec.extractLsb'_append_eq_of_le, BitVec.extractLsb'_eq_self, Nat.reduceSub, Nat.reduceLeDiff]
  rfl

/-- A word whose upper bits are zero is small. -/
theorem toNat_lt_of_upper_zero {w : Word} {k : Nat} (hk : k ≤ 32) (h : w.extractLsb' k (32 - k) = 0) : w.toNat < 2 ^ k := by
  have hz : w.toNat / 2 ^ k % 2 ^ (32 - k) = 0 := by
    simpa [Nat.shiftRight_eq_div_pow] using congrArg BitVec.toNat h
  have hlt : w.toNat / 2 ^ k < 2 ^ (32 - k) := by
    rw [Nat.div_lt_iff_lt_mul (Nat.two_pow_pos k), ← pow_add, Nat.sub_add_cancel hk]
    exact w.isLt
  rw [Nat.mod_eq_of_lt hlt, Nat.div_eq_zero_iff] at hz
  exact hz.resolve_left (Nat.two_pow_pos k).ne'

/-- Settles O6, field by field. -/
theorem statusWordFields : Obligations.StatusWordFields := by
  intro s
  refine ⟨?_, statusWord_initDone s, ?_, ?_, ?_, ?_, ?_, toNat_lt_of_upper_zero (by decide) (statusWord_reserved s)⟩
  · simp only [State.statusWord, BitVec.getLsbD_append]
    simp [busy_eq]
  · simp only [State.statusWord, BitVec.getLsbD_append]
    simp
  · simp only [State.statusWord, BitVec.getLsbD_append]
    simp
  · rw [statusWord_err]
    cases s.regs.err <;> rfl
  · simp only [State.statusWord, BitVec.getLsbD_append]
    simp
  · rw [statusWord_fcause]
    rcases s.fault with _ | _ | _ | _ | _ <;> rfl

theorem srDecode_reserved (l : SrLayout) (sr : Byte) : (srDecode l sr).extractLsb' 8 24 = 0 := by
  simp only [srDecode, BitVec.extractLsb'_append_eq_of_le, BitVec.extractLsb'_eq_self, Nat.reduceSub, Nat.reduceLeDiff]
  rfl

/-- Settles O7, field by field; BP is two bits of RDATA side by side. -/
theorem srFieldsDecodeRdata : Obligations.SrFieldsDecodeRdata := by
  intro s hl
  refine ⟨?_, ?_, ?_, ?_, ?_, ?_, ?_, toNat_lt_of_upper_zero (by decide) (srDecode_reserved _ _)⟩
  case refine_4 =>
    apply BitVec.eq_of_getLsbD_eq
    intro k hk
    rcases (show k = 0 ∨ k = 1 by omega) with rfl | rfl <;>
      simp only [State.srFields, srDecode, hl, SrLayout.standard, BitVec.getLsbD_extractLsb', BitVec.getLsbD_append] <;> simp
  all_goals
    simp only [State.srFields, srDecode, hl, SrLayout.standard, BitVec.getLsbD_append]
    simp [chipReady]

/-! ### The byte memory -/

/-- An address before the first one of a memory in canonical form holds nothing. -/
theorem Memory.get?_lt_head {m : Memory} {a b : Nat} {w : Byte} (h : Memory.wf ((b, w) :: m) = true) (hab : a < b) :
    Memory.get? ((b, w) :: m) a = none := by
  simp only [Memory.wf, Bool.and_eq_true] at h
  rw [Memory.get?, if_neg hab.ne, Memory.get?_le_of_above h.2 h.1 hab.le]

/-- Two memories in canonical form that read alike have the same first address, the same byte there, and tails that read alike. -/
theorem Memory.ext_of_wf {m m' : Memory} (h : Memory.wf m = true) (h' : Memory.wf m' = true)
    (hread : ∀ a, m.get? a = m'.get? a) : m = m' := by
  induction m generalizing m' with
  | nil =>
    cases m' with
    | nil => rfl
    | cons c m' => simpa [Memory.get?] using hread c.1
  | cons c m ih =>
    obtain ⟨a, v⟩ := c
    cases m' with
    | nil => simpa [Memory.get?] using hread a
    | cons d m' =>
      obtain ⟨b, w⟩ := d
      have hab : a = b := by
        rcases lt_trichotomy a b with hlt | heq | hgt
        · simpa [Memory.get?] using (hread a).trans (Memory.get?_lt_head h' hlt)
        · exact heq
        · simpa [Memory.get?] using (hread b).symm.trans (Memory.get?_lt_head h hgt)
      subst hab
      have hvw : v = w := by simpa [Memory.get?] using hread a
      subst hvw
      simp only [Memory.wf, Bool.and_eq_true] at h h'
      rw [ih h.2 h'.2 fun x => ?_]
      by_cases hx : x = a
      · rw [hx, Memory.get?_le_of_above h.2 h.1 le_rfl, Memory.get?_le_of_above h'.2 h'.1 le_rfl]
      · simpa [Memory.get?, hx] using hread x

/-- Settles O54. -/
theorem memoryIsCanonical : Obligations.MemoryIsCanonical :=
  ⟨fun _ a v h => Memory.set_wf a v h, fun m a b v => Memory.get?_set m a b v, fun _ _ => Memory.ext_of_wf⟩

end Sys2Proof.Machine
end

section
/-! PROOFS. What a step leaves alone, and who writes the registers, the fault record and the trace (spec/10_state.md R33 to R39, R47,
R55, spec/60_exceptions.md R301, R308 to R310). -/

namespace Sys2Proof.Machine

/-! ### Host commands -/

/-- What a step of a host command leaves alone. -/
structure CommandKeeps (s t : State) : Prop where
  cfg : t.cfg = s.cfg
  buf : t.buf = s.buf
  lat : t.lat = s.lat
  hostData : t.hostData = s.hostData
  holding : t.regs.addr = s.regs.addr ∧ t.regs.len = s.regs.len ∧ t.regs.wdata = s.regs.wdata ∧ t.regs.clkcfg = s.regs.clkcfg
  agents : t.env.sched = s.env.sched ∧ t.env.busFree = s.env.busFree ∧ t.env.epoch = s.env.epoch

theorem CheckStep.keeps {s t : State} (h : CheckStep s t) : CommandKeeps s t := by
  cases h with
  | waits r => exact ⟨rfl, rfl, rfl, rfl, ⟨rfl, rfl, rfl, rfl⟩, Env.afterNow_keep s.env⟩
  | segments c r =>
    have hkeep := Env.afterNow_keep s.env.keepBefore
    constructor <;> simp [State.startWait, hkeep]
  | _ => exact ⟨rfl, rfl, rfl, rfl, ⟨rfl, rfl, rfl, rfl⟩, rfl, rfl, rfl⟩

theorem CmdStep.keeps {i : Instr} {s t : State} (h : CmdStep i s t) : CommandKeeps s t := by
  cases h with
  | check _ hc => exact hc.keeps
  | waitT0 r | pollT r => exact ⟨rfl, rfl, rfl, rfl, ⟨rfl, rfl, rfl, rfl⟩, Env.afterNow_keep s.env⟩
  | _ => exact ⟨rfl, rfl, rfl, rfl, ⟨rfl, rfl, rfl, rfl⟩, rfl, rfl, rfl⟩

/-- No instruction writes a holding register (10_state.md R34). -/
theorem exec_holding {i : Instr} {s t : State} (h : exec i s = .next t) :
    t.regs.addr = s.regs.addr ∧ t.regs.len = s.regs.len ∧ t.regs.wdata = s.regs.wdata ∧ t.regs.clkcfg = s.regs.clkcfg := by
  cases hs : i.space with
  | wire => simp [(wire_next hs h).1.regs]
  | host => exact (command_next hs h).keeps.holding

/-! ### The trace (10_state.md R55) -/

/-- The trace grows by at most one event. -/
def OneEvent (s t : State) : Prop := t.trace = s.trace ∨ ∃ e, t.trace = s.trace ++ [e]

theorem CheckStep.oneEvent {s t : State} (h : CheckStep s t) : OneEvent s t := by
  cases h with
  | opens | waits | segments => exact .inr ⟨_, rfl⟩
  | precondition | notInit | bufRange | returns => exact .inl rfl

theorem CmdStep.oneEvent {i : Instr} {s t : State} (h : CmdStep i s t) : OneEvent s t := by
  cases h with
  | check _ hc => exact hc.oneEvent
  | initPin | deinitPin | waitT0 | pollT | pollY => exact .inr ⟨_, rfl⟩
  | initEnd | deinitEnd | complete | completeRdata | failing => exact .inl rfl

theorem Primitive.oneEvent {s p : State} (h : Primitive s p) : OneEvent s p := by
  cases h with
  | hold => exact .inl rfl
  | csLow | txnBegin | xfer | csHigh | csCut | txnEnd => exact .inr ⟨_, rfl⟩

theorem exec_oneEvent {i : Instr} {s t : State} (h : exec i s = .next t) : OneEvent s t := by
  cases hs : i.space with
  | host => exact (command_next hs h).oneEvent
  | wire =>
    obtain ⟨p, hp, -, htrace⟩ := wire_primitive hs h
    simpa only [OneEvent, htrace] using hp.oneEvent

/-- Settles O48: of all who move, only an instruction appends to the trace, and a reset empties it. -/
theorem oneEventPerStep : Obligations.OneEventPerStep := by
  intro s t h hreset
  show OneEvent s t
  cases (step_next h).2 with
  | idle q hq =>
    obtain ⟨r, rfl⟩ := hq.eq_setSched
    exact .inl rfl
  | run q i hq _ _ he =>
    obtain ⟨r, rfl⟩ := hq.eq_setSched
    exact exec_oneEvent (s := s.setSched r) he
  | start r op v i _ _ _ _ he => exact exec_oneEvent (s := (s.setSched r).start v) he
  | illegal | busyCmd | bus => exact .inl rfl
  | write r a lanes => exact .inl (hostWrite_keeps a lanes (s.setSched r)).trace
  | read r a n => exact .inl (hostRead_keeps a n (s.setSched r)).trace
  | readStatus r => exact .inl (hostRead_keeps _ 4 (s.setSched r)).trace
  | reset r hr => exact absurd hr (hreset r)

/-- Settles O43: the clock is INIT's to write, and only a command's checks record a fault. -/
theorem hostCommandsLeaveTheRest : Obligations.HostCommandsLeaveTheRest := by
  intro i s t hi h
  have hc := command_next hi h
  obtain ⟨hcfg, hbuf, hlat, hdata, ⟨haddr, hlen, hwdata, hclkcfg⟩, hsched, hbus, hepoch⟩ := hc.keeps
  refine ⟨hcfg, fun a => ?_, hbuf, hlat, hdata, haddr, hlen, hwdata, hclkcfg, hsched, hbus, hepoch, fun hinit => ?_,
    fun hcheck => ?_, ?_⟩
  · simp [State.bufByte, hbuf, hepoch]
  · by_contra hclock
    rcases (exec_next h).initClock (.inr hclock) with hi' | ⟨-, hsame⟩
    · exact hinit hi'
    · exact hclock hsame
  · exact (exec_records h).resolve_right fun hrec => hcheck hrec.1
  · rcases hc.oneEvent with htrace | ⟨e, htrace⟩
    · exact ⟨[], by simpa using htrace⟩
    · exact ⟨[e], htrace⟩

/-! ### Registers -/

/-- Settles O45: the three writers at their completion; of every other step `ExecEffect` says it. -/
theorem rdataWriters : Obligations.RdataWriters := by
  refine ⟨fun s hp => ⟨?_, ?_, ?_⟩, fun i s t h hne => (exec_next h).rdata hne⟩
  · exact ⟨(s.setRdata s.cur.d).succeed 1, by simp [exec, execReadByte, runWaiting, hp], rfl⟩
  · exact ⟨(s.setRdata s.cur.sr).succeed 1, by simp [exec, execReadStatus, runFrames, hp], rfl⟩
  · exact ⟨(s.setRdata s.cur.sr).succeed _, by simp [exec, execIsReady, runFrames, hp]; rfl, rfl⟩

/-- Settles O47: a running instruction keeps the registers, and a failed one leaves RESULT = 0. -/
theorem resultIsHeldWhileBusy : Obligations.ResultIsHeldWhileBusy := by
  intro s t h hreset
  have held : ∀ {q}, HostKeeps q t → q.regs = s.regs → q.phase = s.phase →
      (t.phase ≠ .idle → t.regs.result = s.regs.result ∧ t.regs.err = s.regs.err ∧ t.regs.rdata = s.regs.rdata) ∧
      (s.phase ≠ .idle → t.phase = .idle → t.regs.err ≠ .none → t.regs.result = 0) := fun hk hregs hphase =>
    ⟨fun _ => hregs ▸ ⟨hk.result, hk.err, hk.rdata⟩, fun hrun hidle => absurd (hphase ▸ hk.phase ▸ hidle) hrun⟩
  cases (step_next h).2 with
  | idle q hq hp =>
    obtain ⟨r, rfl⟩ := hq.eq_setSched
    exact ⟨fun hrun => absurd hp hrun, fun hrun => absurd hp hrun⟩
  | run q i hq hp hf he =>
    obtain ⟨r, rfl⟩ := hq.eq_setSched
    exact ⟨fun hrun => by simp [(exec_next he).running hrun], fun _ => (exec_next he).failed⟩
  | start r op v i _ _ hp _ he =>
    exact ⟨fun hrun => by simp [(exec_next he).running hrun], fun hrun => absurd hp hrun⟩
  | illegal r op v _ _ hp => exact ⟨fun hrun => absurd rfl hrun, fun hrun => absurd hp hrun⟩
  | busyCmd r _ _ hp => exact ⟨fun _ => ⟨rfl, rfl, rfl⟩, fun _ hidle => absurd hidle hp⟩
  | write r a lanes => exact held (hostWrite_keeps a lanes (s.setSched r)) rfl rfl
  | read r a n => exact held (hostRead_keeps a n (s.setSched r)) rfl rfl
  | readStatus r => exact held (hostRead_keeps _ 4 (s.setSched r)) rfl rfl
  | bus r => exact ⟨fun _ => ⟨rfl, rfl, rfl⟩, fun hrun hidle => absurd hidle hrun⟩
  | reset r hr => exact absurd hr (hreset r)

/-- A host command that is fetched is the one the latched code names. -/
theorem fetch_encode {q : State} {i : Instr} (hf : fetch q = some i) (hs : i.space = .host) : encode i = q.lat.code :=
  (decodeHost_encode (hostInstr_decodes (fetch_host hf hs).2).1).2

/-- Settles O46: the two steps of each command, and of every other step `ExecEffect` says it. -/
theorem initDoneAndClockWriters : Obligations.InitDoneAndClockWriters := by
  refine ⟨fun s t h => ?_, fun s t h hp => ?_, statusWord_initDone, fun s t h hreset hne => ?_⟩
  · simp only [exec, execInit] at h
    rcases runPin_next h with ⟨hq, rfl⟩ | ⟨hq, rfl⟩
    · exact ⟨fun hp => absurd (hq.symm.trans hp) nofun, fun _ => rfl⟩
    · exact ⟨fun _ => rfl, fun hp => absurd (hq.symm.trans hp) nofun⟩
  · simp only [exec, execDeinit] at h
    rcases runPin_next h with ⟨hq, rfl⟩ | ⟨hq, rfl⟩
    · exact absurd (hq.symm.trans hp) nofun
    · rfl
  · have keeps : ∀ {q}, HostKeeps q t → q.initDone = s.initDone → q.clockHz = s.clockHz → False := fun hk hinit hclock =>
      hne.elim (fun hn => hn (hk.initDone.trans hinit)) fun hn => hn (hk.clockHz.trans hclock)
    cases (step_next h).2 with
    | idle q hq =>
      obtain ⟨r, rfl⟩ := hq.eq_setSched
      simp at hne
    | run q i hq hp hf he =>
      obtain ⟨r, rfl⟩ := hq.eq_setSched
      rw [(exec_next he).lat]
      rcases (exec_next he).initClock hne with rfl | ⟨rfl, hclock⟩
      · exact .inl (fetch_encode hf rfl).symm
      · exact .inr ⟨(fetch_encode hf rfl).symm, hclock⟩
    | start r op v i _ _ _ hi he =>
      rw [(exec_next he).lat]
      have hcode := (decodeHost_encode (hostInstr_decodes hi).1).2.symm
      rcases (exec_next he).initClock hne with rfl | ⟨rfl, hclock⟩
      · exact .inl hcode
      · exact .inr ⟨hcode, hclock⟩
    | illegal | busyCmd | bus => simp [State.raiseFault] at hne
    | write r a lanes => exact (keeps (hostWrite_keeps a lanes (s.setSched r)) rfl rfl).elim
    | read r a n => exact (keeps (hostRead_keeps a n (s.setSched r)) rfl rfl).elim
    | readStatus r => exact (keeps (hostRead_keeps _ 4 (s.setSched r)) rfl rfl).elim
    | reset r hr => exact absurd hr (hreset r)

/-! ### The fault record (60_exceptions.md R310) -/

/-- The command `i` runs its checks in the step from `s` to `t`: it is at them, or a CMD write to an idle block starts it. -/
def Checks (i : Instr) (s t : State) : Prop :=
  hostInstr s.cfg t.lat.code = some i ∧
    (s.phase = .check ∨
      s.phase = .idle ∧ ∃ x y z r, s.env.sched = .host (.write s.cfg.hostBase [t.lat.code, x, y, z]) :: r)

/-- The reason of each cause, for a step from `s` to `t`. -/
inductive FaultReason (s t : State) : Cause → Prop
  | busyAccess (op : HostOp) (r : List Event) : s.phase ≠ .idle → s.env.sched = .host op :: r → FaultReason s t .busyAccess
  | illegalCmd (b x y z : Byte) (r : List Event) : s.phase = .idle →
      s.env.sched = .host (.write s.cfg.hostBase [b, x, y, z]) :: r → hostInstr s.cfg b = none → FaultReason s t .illegalCmd
  | notInit (i : Instr) : s.initDone = false → isBusCommand i = true → Checks i s t → FaultReason s t .notInit
  | bufRange (i : Instr) : s.initDone = true → s.cfg.bufBytes < t.lat.len.toNat → i ∈ bufCommands → Checks i s t →
      FaultReason s t .bufRange

/-- The first fault is kept (R310). -/
theorem recordFault_eq (c : Cause) (s : State) : s.recordFault c = { s with fault := some (s.fault.getD c) } := by
  unfold State.recordFault
  cases s.fault <;> rfl

theorem recordFault_getD (c : Cause) (s : State) : (s.recordFault c).fault = some (s.fault.getD c) := by rw [recordFault_eq]

/-- The commands with RequireInit are those with bus activity (R308). -/
theorem isBusCommand_of_requiresInit {i : Instr} (h : i ∉ initFree) (hs : i.space = .host) : isBusCommand i = true := by
  cases i <;> simp [isBusCommand, Instr.space] at h hs ⊢

/-- What an instruction records, it records at the checks of its command. -/
theorem exec_fault {i : Instr} {s q t : State} (he : exec i q = .next t) (hfault : q.fault = s.fault)
    (hinit : q.initDone = s.initDone) (hcfg : q.cfg = s.cfg) (hchecks : q.phase = .check → i.space = .host → Checks i s t) :
    t.fault = s.fault ∨ ∃ c, t.fault = some (s.fault.getD c) ∧ FaultReason s t c := by
  rcases exec_records he with hsame | ⟨hp, ⟨hdone, hi, hs, hrec⟩ | ⟨hdone, hlen, hi, hrec⟩⟩
  · exact .inl (hsame.trans hfault)
  · rw [recordFault_getD, hfault] at hrec
    exact .inr ⟨_, hrec, .notInit i (hinit ▸ hdone) (isBusCommand_of_requiresInit hi hs) (hchecks hp hs)⟩
  · have hs : i.space = .host := by fin_cases hi <;> rfl
    rw [recordFault_getD, hfault] at hrec
    rw [hcfg, State.cLen, ← (exec_next he).lat] at hlen
    exact .inr ⟨_, hrec, .bufRange i (hinit ▸ hdone) hlen hi (hchecks hp hs)⟩

/-- A step but a reset keeps the fault record, or records a cause for its reason where nothing was recorded. -/
theorem step_fault {s t : State} (h : step s = .next t) (hreset : ∀ r, s.env.sched ≠ .reset :: r) :
    t.fault = s.fault ∨ ∃ c, t.fault = some (s.fault.getD c) ∧ FaultReason s t c := by
  have access : ∀ {op r}, s.env.sched = .host op :: r → HostKeeps (s.setSched r) t →
      t.fault = s.fault ∨ ∃ c, t.fault = some (s.fault.getD c) ∧ FaultReason s t c := fun hr hk =>
    hk.fault.imp id fun ⟨hp, hrec⟩ => ⟨_, hrec.trans (recordFault_getD _ _), .busyAccess _ _ hp hr⟩
  cases (step_next h).2 with
  | idle q hq =>
    obtain ⟨r, rfl⟩ := hq.eq_setSched
    exact .inl rfl
  | run q i hq hp hf he =>
    obtain ⟨r, rfl⟩ := hq.eq_setSched
    refine exec_fault he rfl rfl rfl fun hcheck hs => ⟨?_, .inl hcheck⟩
    rw [(exec_next he).lat]
    exact (fetch_host hf hs).2
  | start r op v i hr hc hp hi he =>
    refine exec_fault he rfl rfl rfl fun _ _ => ?_
    obtain ⟨x, y, z, rfl⟩ := cmdWrite_form hc
    have hcode : t.lat.code = v.setWidth 8 := by rw [(exec_next he).lat]; rfl
    exact ⟨hcode ▸ hi, .inr ⟨hp, x, y, z, r, hcode ▸ hr⟩⟩
  | illegal r op v hr hc hp hi =>
    obtain ⟨x, y, z, rfl⟩ := cmdWrite_form hc
    exact .inr ⟨.illegalCmd, recordFault_getD _ _, .illegalCmd _ x y z r hp hr hi⟩
  | busyCmd r op hr hp => exact .inr ⟨.busyAccess, recordFault_getD _ _, .busyAccess op r hp hr⟩
  | write r a lanes hr => exact access hr (hostWrite_keeps a lanes _)
  | read r a n hr => exact access hr (hostRead_keeps a n _)
  | readStatus r hr hp =>
    exact (hostRead_keeps _ 4 (s.setSched r)).fault.imp id fun hrec => absurd hp hrec.1
  | bus r => exact .inl rfl
  | reset r hr => exact absurd hr (hreset r)

/-- Settles O20, from `step_fault`. -/
theorem firstFaultIsKept : Obligations.FirstFaultIsKept := by
  intro s t h hreset
  have reason : ∀ {c}, s.fault = none → t.fault = some c → FaultReason s t c := by
    intro c hnone hc
    rcases step_fault h hreset with hsame | ⟨d, hd, hreason⟩
    · simp [hsame, hnone] at hc
    · obtain rfl : d = c := by simpa [hnone, hc] using hd.symm
      exact hreason
  refine ⟨fun c hc => ?_, fun hn hf => ?_, fun hn hf => ?_, fun hn hf => ?_, fun hn hf => ?_⟩
  · rcases step_fault h hreset with hsame | ⟨d, hd, -⟩
    · exact hsame.trans hc
    · simpa [hc] using hd
  · cases reason hn hf with
    | busyAccess op r hp hr => exact ⟨hp, op, r, hr⟩
  · cases reason hn hf with
    | illegalCmd b x y z r hp hr hi => exact ⟨hp, b, x, y, z, r, hr, hi⟩
  · cases reason hn hf with
    | notInit i hinit hbus hchecks => exact ⟨hinit, i, hbus, hchecks⟩
  · cases reason hn hf with
    | bufRange i hinit hlen hi hchecks => exact ⟨hinit, hlen, i, hi, hchecks⟩

end Sys2Proof.Machine
end

section
/-! PROOFS. Host accesses and who moves in a step (spec/10_state.md R32 to R36, R46, spec/20_memory.md R82, R84, spec/60_exceptions.md
R301, R309, R310). -/

namespace Sys2Proof.Machine

/-! ### What a host access reaches -/

/-- What is neither an aligned 32-bit access to a register nor an 8-bit access to BUF reaches nothing (R82, R84). -/
theorem hostTarget_nothing {c : Config} {a n : Nat}
    (hreg : ¬(c.hostBase ≤ a ∧ a < c.hostBase + 0x24 ∧ (a - c.hostBase) % 4 = 0 ∧ n = 4))
    (hbuf : ¬(c.hostBase + 0x1000 ≤ a ∧ a < c.hostBase + 0x1000 + c.bufBytes ∧ n = 1)) : hostTarget c a n = .nothing := by
  unfold hostTarget
  split
  · rfl
  · dsimp only
    rw [if_neg (by omega), if_neg (by omega)]

theorem busy_true {s : State} : s.busy = true ↔ s.phase ≠ .idle := by simp [busy_eq]

section
variable {s : State} {a i : Nat}

theorem hostWrite_buf_idle {lanes : List Byte} (ht : hostTarget s.cfg a lanes.length = .buf i) (hp : s.phase = .idle) :
    s.hostWrite a lanes = s.bufWrite i (laneAt lanes 0) := by
  simp [State.hostWrite, ht, busy_false.2 hp]

theorem hostWrite_buf_busy {lanes : List Byte} (ht : hostTarget s.cfg a lanes.length = .buf i) (hp : s.phase ≠ .idle) :
    s.hostWrite a lanes = { s with fault := some (s.fault.getD .busyAccess) } := by
  simp [State.hostWrite, ht, busy_true.2 hp, recordFault_eq]

theorem hostRead_buf_idle {n : Nat} (ht : hostTarget s.cfg a n = .buf i) (hp : s.phase = .idle) :
    s.hostRead a n = { s with hostData := [s.bufByte i] } := by
  simp [State.hostRead, State.readLanes, ht, busy_false.2 hp]

theorem hostRead_buf_busy {n : Nat} (ht : hostTarget s.cfg a n = .buf i) (hp : s.phase ≠ .idle) :
    s.hostRead a n = { s with hostData := [0], fault := some (s.fault.getD .busyAccess) } := by
  simp [State.hostRead, State.readLanes, ht, busy_true.2 hp, recordFault_eq]

theorem hostRead_reg {n off : Nat} (ht : hostTarget s.cfg a n = .reg off) :
    s.hostRead a n = { s with hostData := lanesOf (s.readReg off) } := by
  simp [State.hostRead, State.readLanes, ht]

theorem hostWrite_nothing {lanes : List Byte} (ht : hostTarget s.cfg a lanes.length = .nothing) : s.hostWrite a lanes = s := by
  simp [State.hostWrite, ht]

theorem hostRead_nothing {n : Nat} (ht : hostTarget s.cfg a n = .nothing) :
    s.hostRead a n = { s with hostData := List.replicate n 0 } := by
  simp [State.hostRead, State.readLanes, ht]

end

/-! ### Who moves in a step -/

section
variable {s : State} {r : List Event} (hv : s.cfg.valid = true)
include hv

theorem step_host {op : HostOp} (hs : s.env.sched = .host op :: r) : step s = hostStep op (s.setSched r) := by
  simp [step, hv, hs]

theorem step_read {a n : Nat} (hs : s.env.sched = .host (.read a n) :: r) : step s = .next ((s.setSched r).hostRead a n) := by
  rw [step_host hv hs]
  rfl

/-- A write that is not to CMD. -/
theorem step_write {a : Nat} {lanes : List Byte} (hs : s.env.sched = .host (.write a lanes) :: r)
    (ht : hostTarget s.cfg a lanes.length ≠ .reg 0) : step s = .next ((s.setSched r).hostWrite a lanes) := by
  rw [step_host hv hs]
  simp [hostStep, cmdWrite, ht]

/-- A write to CMD. -/
theorem step_cmd {v : Word} (hs : s.env.sched = .host (.write s.cfg.hostBase (lanesOf v)) :: r) :
    step s = cmdStep v (s.setSched r) := by
  rw [step_host hv hs]
  simp [hostStep, cmdWrite_lanesOf]

/-- A read of a register answers its lanes, and changes nothing of the block. -/
theorem step_readReg {off : Nat} (hoff : off < 0x24) (hal : off % 4 = 0)
    (hs : s.env.sched = .host (.read (s.cfg.hostBase + off) 4) :: r) :
    step s = .next { s with hostData := lanesOf (s.readReg off), env := { s.env with sched := r } } := by
  rw [step_read hv hs, hostRead_reg (s := s.setSched r) (hostTarget_reg s.cfg hoff hal)]
  rfl

/-- A write of a register other than CMD. -/
theorem step_writeReg {off : Nat} {lanes : List Byte} (hpos : 0 < off) (hoff : off < 0x24) (hal : off % 4 = 0)
    (hlen : lanes.length = 4) (hs : s.env.sched = .host (.write (s.cfg.hostBase + off) lanes) :: r) :
    step s = .next ((s.setSched r).writeReg off (wordOfLanes lanes)) := by
  have ht := hostTarget_reg s.cfg hoff hal
  rw [step_write hv hs (by rw [hlen, ht]; simpa using hpos.ne')]
  simp only [State.hostWrite, State.setSched_cfg, hlen, ht]

end

theorem cmdStep_busy {v : Word} {s : State} (hp : s.phase ≠ .idle) : cmdStep v s = .next (s.recordFault .busyAccess) := by
  simp [cmdStep, busy_true.2 hp]

theorem cmdStep_start {v : Word} {i : Instr} {s : State} (hp : s.phase = .idle) (hi : hostInstr s.cfg (v.setWidth 8) = some i) :
    cmdStep v s = exec i (s.start v) := by
  simp [cmdStep, busy_false.2 hp, hi]

theorem cmdStep_illegal {v : Word} {s : State} (hp : s.phase = .idle) (hi : hostInstr s.cfg (v.setWidth 8) = none) :
    cmdStep v s = .next ((s.start v).raiseFault .illegalCmd) := by
  simp [cmdStep, busy_false.2 hp, hi]

/-- What is left of an illegal command (60_exceptions.md R309). -/
theorem raiseFault_illegal {v : Word} {s : State} (hp : s.phase = .idle) :
    (s.start v).raiseFault .illegalCmd = { s with
      regs := { s.regs with result := 0, err := .illegalCmd }, fault := some (s.fault.getD .illegalCmd)
      lat := s.regs.latched v } := by
  rw [State.raiseFault, recordFault_eq]
  cases s
  dsimp only at hp
  subst hp
  rfl

/-- Settles O9. -/
theorem registerReads : Obligations.RegisterReads := by
  refine ⟨fun v k hk => ?_, fun s r off v hv hs hmem => ?_⟩
  · rcases (show k = 0 ∨ k = 1 ∨ k = 2 ∨ k = 3 by omega) with rfl | rfl | rfl | rfl <;>
      simp [lanesOf, BitVec.extractLsb', Nat.shiftRight_eq_div_pow]
  · have hread : off < 0x24 ∧ off % 4 = 0 ∧ v = s.readReg off := by
      simp only [List.mem_cons, Prod.mk.injEq, List.not_mem_nil, or_false] at hmem
      rcases hmem with ⟨rfl, rfl⟩ | ⟨rfl, rfl⟩ | ⟨rfl, rfl⟩ | ⟨rfl, rfl⟩ | ⟨rfl, rfl⟩ | ⟨rfl, rfl⟩ | ⟨rfl, rfl⟩ | ⟨rfl, rfl⟩ |
        ⟨rfl, rfl⟩ <;> exact ⟨by decide, by decide, rfl⟩
    obtain ⟨hoff, hal, rfl⟩ := hread
    exact step_readReg hv hoff hal hs

/-- Settles O11: the three outcomes of a CMD write; of every other step `StepCase` tells that it starts nothing. -/
theorem cmdWriteStartsOrIsRecorded : Obligations.CmdWriteStartsOrIsRecorded := by
  refine ⟨fun s r v hv hs => ⟨fun hp i hi => ?_, fun hp hi => ?_, fun hp => ?_⟩, fun s r hv hs => ?_, fun s t h hp hrun => ?_⟩
  · rw [step_cmd hv hs]
    exact cmdStep_start hp hi
  · rw [step_cmd hv hs, cmdStep_illegal (s := s.setSched r) hp hi, raiseFault_illegal (s := s.setSched r) hp]
    rfl
  · rw [step_cmd hv hs, cmdStep_busy (s := s.setSched r) hp, recordFault_eq]
    rfl
  · have hzero : lanesOf (s.readReg 0) = [0, 0, 0, 0] := by simp [State.readReg, lanesOf]
    rw [step_readReg (off := 0) hv (by decide) rfl hs, hzero]
  · cases (step_next h).2 with
    | start r op v i hr hc =>
      obtain ⟨x, y, z, rfl⟩ := cmdWrite_form hc
      exact ⟨_, r, rfl, hr⟩
    | idle q hq =>
      obtain ⟨r, rfl⟩ := hq.eq_setSched
      exact absurd hp hrun
    | run q i _ hp' => exact absurd hp hp'
    | busyCmd r op _ hp' => exact absurd hp hp'
    | write r a lanes => exact absurd ((hostWrite_keeps a lanes (s.setSched r)).phase.trans hp) hrun
    | read r a n => exact absurd ((hostRead_keeps a n (s.setSched r)).phase.trans hp) hrun
    | readStatus r => exact absurd ((hostRead_keeps _ 4 (s.setSched r)).phase.trans hp) hrun
    | bus => exact absurd hp hrun
    | illegal | reset => exact absurd rfl hrun

/-- Settles O12. -/
theorem bufferAccessesOnlyWhileIdle : Obligations.BufferAccessesOnlyWhileIdle := by
  intro s r i b hv hi
  have ht := hostTarget_buf s.cfg hi
  refine ⟨fun hs => ⟨fun hp => ?_, fun hp => ?_⟩, fun hs => ⟨fun hp => ?_, fun hp => ?_⟩⟩
  · rw [step_write hv hs (by rw [List.length_singleton, ht]; nofun), hostWrite_buf_idle (s := s.setSched r) (lanes := [b]) ht hp]
    refine ⟨_, rfl, rfl, ?_, fun j hj => ?_⟩
    · simp [State.bufByte, laneAt]
    · simp [State.bufByte, Memory.get?_set_ne _ _ hj]
  · rw [step_write hv hs (by rw [List.length_singleton, ht]; nofun), hostWrite_buf_busy (s := s.setSched r) (lanes := [b]) ht hp]
    rfl
  · rw [step_read hv hs, hostRead_buf_idle (s := s.setSched r) ht hp]
    rfl
  · rw [step_read hv hs, hostRead_buf_busy (s := s.setSched r) ht hp]
    rfl

/-- Settles O13. -/
theorem otherAccessesDoNothing : Obligations.OtherAccessesDoNothing := by
  refine ⟨fun s r a hv => ⟨fun lanes hs hreg hbuf => ?_, fun size hs hreg hbuf => ?_⟩, fun s r off lanes hv hlen hoff hs => ?_⟩
  · have ht := hostTarget_nothing hreg hbuf
    rw [step_write hv hs (by rw [ht]; nofun), hostWrite_nothing (s := s.setSched r) ht]
    rfl
  · rw [step_read hv hs, hostRead_nothing (s := s.setSched r) (hostTarget_nothing hreg hbuf)]
    rfl
  · simp only [List.mem_cons, List.not_mem_nil, or_false] at hoff
    rw [step_writeReg hv (by omega) (by omega) (by omega) hlen hs]
    rcases hoff with rfl | rfl | rfl | rfl <;> rfl

/-! ### What the sequencer runs (10_state.md R36) -/

theorem seqStep_idle {q : State} (hp : q.phase = .idle) : seqStep q = .next q := by simp [seqStep, hp]

theorem seqStep_run {q : State} {i : Instr} (hp : q.phase ≠ .idle) (hf : fetch q = some i) : seqStep q = exec i q := by
  unfold seqStep
  split
  · exact absurd ‹_› hp
  all_goals simp [hf]

theorem fetch_frame {q : State} {u : FrameUse} {pt : FramePoint} (hp : q.phase = .frame u pt) :
    fetch q = decodeWire (q.frameOp u) := by
  simp [fetch, hp]

theorem fetch_command {q : State} (hp : q.phase ≠ .idle) (hframe : ∀ u pt, q.phase ≠ .frame u pt) :
    fetch q = hostInstr q.cfg q.lat.code := by
  unfold fetch
  split <;> simp_all

/-- Settles O14, by cases on the head of the schedule. -/
theorem stepRunsTheFetchedInstruction : Obligations.StepRunsTheFetchedInstruction := by
  intro s hv
  refine ⟨fun q hq => ?_, fun r v i hp hs hi => ?_, fun r g hs => ?_, fun r hp hs => ?_⟩
  · have hmove : step s = seqStep q ∧ (q = s ∨ ∃ r, q = s.setSched r) := by
      rcases hq with ⟨hs, rfl⟩ | ⟨r, hs, rfl⟩ | ⟨⟨r, hs⟩, hp, rfl⟩
      · exact ⟨by simp [step, hv, hs], .inl rfl⟩
      · exact ⟨by simp [step, hv, hs]; rfl, .inr ⟨r, rfl⟩⟩
      · exact ⟨by simp [step, hv, hs, busy_true.2 hp], .inl rfl⟩
    obtain ⟨hstep, hq⟩ := hmove
    have hsame : q.phase = s.phase ∧ q.cfg = s.cfg ∧ q.lat = s.lat ∧ ∀ u, q.frameOp u = s.frameOp u := by
      rcases hq with rfl | ⟨r, rfl⟩ <;> simp
    obtain ⟨hphase, hcfg, hlat, hop⟩ := hsame
    rw [hstep, ← hphase, ← hcfg, ← hlat]
    refine ⟨seqStep_idle, fun u pt i hp hi => ?_, fun i hp hframe hi => ?_⟩
    · exact seqStep_run (by simp [hp]) (by rw [fetch_frame hp, hop, hi])
    · exact seqStep_run hp (by rw [fetch_command hp hframe, hi])
  · rw [step_cmd hv hs]
    exact cmdStep_start hp hi
  · simp only [step, hv, hs]
    rfl
  · have hread := hostRead_reg (s := s.setSched r) (hostTarget_reg s.cfg (off := 0x1C) (by decide) rfl)
    simp only [step, hv, hs, busy_false.2 hp, hread]
    rfl

end Sys2Proof.Machine
end

section
/-! PROOFS. What an instruction does not look at: the holding registers, RDATA, and of the status byte all but bit 0 (spec/10_state.md
R34, R44). One simulation serves both statements. -/

namespace Sys2Proof.Machine

/-! ### The hidden fields -/

/-- Values of the fields that no instruction looks at, and of the status byte, of which one looks at bit 0. -/
structure Hidden where
  addr : Word
  len : Word
  wdata : Byte
  clkcfg : Word
  rdata : Byte
  sr : Byte

/-- The state with other values in those fields. -/
def State.withHidden (x : Hidden) (s : State) : State :=
  { s with
    regs := { s.regs with addr := x.addr, len := x.len, wdata := x.wdata, clkcfg := x.clkcfg, rdata := x.rdata }
    cur := { s.cur with sr := x.sr } }

/-- An operation that neither looks at the hidden fields nor writes RDATA or the status byte. -/
def Blind (f : State → State) : Prop :=
  ∀ x s, f (s.withHidden x) = (f s).withHidden x ∧ (f s).regs.rdata = s.regs.rdata ∧ (f s).cur.sr = s.cur.sr

/-- A branch on what no hidden field decides. -/
theorem Blind.ite {p : State → Prop} [∀ s, Decidable (p s)] {f g : State → State} (hp : ∀ x s, p (s.withHidden x) ↔ p s)
    (hf : Blind f) (hg : Blind g) : Blind fun s => if p s then f s else g s := by
  intro x s
  by_cases h : p s
  · simpa only [if_pos h, if_pos ((hp x s).2 h)] using hf x s
  · simpa only [if_neg h, if_neg fun h' => h ((hp x s).1 h')] using hg x s

theorem blind_goto (p : Phase) : Blind (State.goto p) := fun _ _ => ⟨rfl, rfl, rfl⟩
theorem blind_raiseErr (c : ErrCode) : Blind (State.raiseErr c) := fun _ _ => ⟨rfl, rfl, rfl⟩
theorem blind_raiseFault (c : Cause) : Blind (State.raiseFault c) := fun _ _ => ⟨rfl, rfl, rfl⟩
theorem blind_succeed (n : Word) : Blind (State.succeed n) := fun _ _ => ⟨rfl, rfl, rfl⟩
theorem blind_openFrame (u : FrameUse) : Blind (State.openFrame u) := fun _ _ => ⟨rfl, rfl, rfl⟩
theorem blind_startWait (r : WaitRet) : Blind (State.startWait r) := fun _ _ => ⟨rfl, rfl, rfl⟩
theorem blind_pollTime (r : WaitRet) : Blind (State.pollTime r) := fun _ _ => ⟨rfl, rfl, rfl⟩
theorem blind_pollYield (r : WaitRet) : Blind (State.pollYield r) := fun _ _ => ⟨rfl, rfl, rfl⟩
theorem blind_csHigh : Blind State.csHigh := fun _ _ => ⟨rfl, rfl, rfl⟩
theorem blind_txnEnd : Blind State.txnEnd := fun _ _ => ⟨rfl, rfl, rfl⟩
theorem blind_xfer (tx : Byte) : Blind (State.xfer tx) := fun _ _ => ⟨rfl, rfl, rfl⟩
theorem blind_nextSegment : Blind State.nextSegment := fun _ _ => ⟨rfl, rfl, rfl⟩

theorem blind_csCut (u : FrameUse) : Blind (State.csCut u) := by
  intro x s
  cases u <;> exact ⟨rfl, rfl, rfl⟩

theorem blind_nextData (u : FrameUse) : Blind (State.nextData u) := by
  intro x s
  cases u <;> exact ⟨rfl, rfl, rfl⟩

theorem blind_enterAddr (u : FrameUse) (j : Nat) : Blind (State.enterAddr u j) := by
  refine Blind.ite (p := fun s => j < (s.frameAddr u).length) (fun x s => ?_) (blind_goto _) ?_
  · cases u <;> exact Iff.rfl
  · exact Blind.ite (p := fun _ => u.hasData = true) (fun _ _ => Iff.rfl) (fun _ _ => ⟨rfl, rfl, rfl⟩) (blind_goto _)

theorem blind_keepByte (rx : Byte) : Blind (State.keepByte rx) :=
  Blind.ite (p := fun s => isByteCommand s.command = true) (fun _ _ => Iff.rfl) (fun _ _ => ⟨rfl, rfl, rfl⟩)
    fun _ _ => ⟨rfl, rfl, rfl⟩

theorem blind_compareByte (u : FrameUse) (new rx : Byte) : Blind (State.compareByte u new rx) :=
  Blind.ite (p := fun _ => rx = new) (fun _ _ => Iff.rfl) (blind_nextData u) fun _ _ => ⟨rfl, rfl, rfl⟩

/-! ### The checks -/

theorem Blind.requireInit {k : State → State} (hk : Blind k) : Blind (State.requireInit k) :=
  Blind.ite (p := fun s => s.initDone = true) (fun _ _ => Iff.rfl) hk (blind_raiseFault _)

theorem Blind.requireThat {b : State → Bool} {k : State → State} (hb : ∀ x s, b (s.withHidden x) = b s) (hk : Blind k) :
    Blind fun s => s.requireThat (b s) k :=
  Blind.ite (p := fun s => b s = true) (fun x s => by rw [hb]) hk (blind_raiseErr _)

theorem Blind.requireBuf {k : State → State} (hk : Blind k) : Blind (State.requireBuf k) :=
  Blind.ite (p := fun s => s.cfg.bufBytes < s.cLen) (fun _ _ => Iff.rfl) (blind_raiseFault _) hk

theorem Blind.unlessEmpty {k : State → State} (hk : Blind k) : Blind (State.unlessEmpty k) :=
  Blind.ite (p := fun s => s.cLen = 0) (fun _ _ => Iff.rfl) (blind_succeed 0) hk

theorem blind_beginSegments {a len n : State → Nat}
    (hx : ∀ x s, a (s.withHidden x) = a s ∧ len (s.withHidden x) = len s ∧ n (s.withHidden x) = n s) :
    Blind fun s => s.beginSegments (a s) (len s) (n s) := by
  refine Blind.ite (p := fun s => pageCheck s.cfg (a s) (len s) = true) (fun x s => ?_) (fun x s => ?_) fun x s => ?_
  · obtain ⟨ha, hl, -⟩ := hx x s
    rw [ha, hl]
    rfl
  all_goals
    obtain ⟨ha, hl, hn⟩ := hx x s
    rw [ha, hl, hn]
    exact ⟨rfl, rfl, rfl⟩

/-! ### Similar states -/

/-- The second state is the first but for hidden fields, with `ρ` between the two values of RDATA and of the status byte. -/
def Similar (ρ : Byte → Byte → Prop) (s t : State) : Prop :=
  ∃ x : Hidden, t = s.withHidden x ∧ ρ s.regs.rdata x.rdata ∧ ρ s.cur.sr x.sr

/-- Outcomes that are similar. -/
abbrev SimilarRes (ρ : Byte → Byte → Prop) : Res → Res → Prop := bothRes (Similar ρ)

section
variable {ρ : Byte → Byte → Prop} {s t : State}

theorem Similar.map {f : State → State} (h : Similar ρ s t) (hf : Blind f) : Similar ρ (f s) (f t) := by
  obtain ⟨x, rfl, hd, hs⟩ := h
  obtain ⟨hfx, hfd, hfs⟩ := hf x s
  exact ⟨x, hfx, hfd.symm ▸ hd, hfs.symm ▸ hs⟩

theorem Similar.setRdata (h : Similar ρ s t) {v w : Byte} (hv : ρ v w) : Similar ρ (s.setRdata v) (t.setRdata w) := by
  obtain ⟨x, rfl, -, hs⟩ := h
  exact ⟨{ x with rdata := w }, rfl, hv, hs⟩

theorem Similar.setSr (h : Similar ρ s t) {v w : Byte} (hv : ρ v w) :
    Similar ρ (s.setCur { s.cur with sr := v }) (t.setCur { t.cur with sr := w }) := by
  obtain ⟨x, rfl, hd, -⟩ := h
  exact ⟨{ x with sr := w }, rfl, hd, hv⟩

theorem Similar.sr (h : Similar ρ s t) : ρ s.cur.sr t.cur.sr := by
  obtain ⟨x, rfl, -, hs⟩ := h
  exact hs

theorem Similar.phase (h : Similar ρ s t) : t.phase = s.phase := by
  obtain ⟨x, rfl, -⟩ := h
  rfl

theorem Similar.frameOp (h : Similar ρ s t) (u : FrameUse) : t.frameOp u = s.frameOp u := by
  obtain ⟨x, rfl, -⟩ := h
  cases u <;> rfl

theorem Similar.frameAddr (h : Similar ρ s t) (u : FrameUse) : t.frameAddr u = s.frameAddr u := by
  obtain ⟨x, rfl, -⟩ := h
  cases u <;> rfl

theorem Similar.xferChk (h : Similar ρ s t) {u : FrameUse} {tx : Byte} {k : Byte → State → State}
    (hk : ∀ rx, Similar ρ (k rx (s.xfer tx)) (k rx (t.xfer tx))) : Similar ρ (s.xferChk u tx k) (t.xferChk u tx k) := by
  have hx : t.xferAnswer = s.xferAnswer := by
    obtain ⟨x, rfl, -⟩ := h
    rfl
  unfold State.xferChk
  rw [hx]
  split
  · exact hk _
  · exact (h.map (blind_xfer tx)).map (blind_goto _)

/-! ### Shapes of a host command -/

section
variable {body done : State → State}

theorem Similar.runAtOnce (h : Similar ρ s t) (hb : Blind body) : SimilarRes ρ (runAtOnce body s) (runAtOnce body t) := by
  unfold Machine.runAtOnce
  rw [h.phase]
  cases s.phase with
  | check => exact h.map hb
  | _ => rfl

theorem Similar.runPin (h : Similar ρ s t) (hb : Blind body) (hd : Blind done) :
    SimilarRes ρ (runPin body done s) (runPin body done t) := by
  unfold Machine.runPin
  rw [h.phase]
  cases s.phase with
  | check => exact h.map hb
  | pin => exact h.map hd
  | _ => rfl

theorem Similar.runFrames (h : Similar ρ s t) (hb : Blind body) (hd : Similar ρ (done s) (done t)) :
    SimilarRes ρ (runFrames body done s) (runFrames body done t) := by
  unfold Machine.runFrames
  rw [h.phase]
  cases s.phase with
  | check => exact h.map hb
  | complete => exact hd
  | failing c => exact h.map (blind_raiseErr c)
  | _ => rfl

theorem Similar.runWaiting (h : Similar ρ s t) (hb : Blind body) (hd : Similar ρ (done s) (done t)) :
    SimilarRes ρ (runWaiting body done s) (runWaiting body done t) := by
  unfold Machine.runWaiting
  rw [h.phase]
  cases s.phase with
  | check => exact h.map hb
  | waitT0 r => exact h.map (blind_startWait r)
  | pollT r => exact h.map (blind_pollTime r)
  | pollY r => exact h.map (blind_pollYield r)
  | complete => exact hd
  | failing c => exact h.map (blind_raiseErr c)
  | _ => rfl

end

/-! ### Frames -/

theorem Similar.statusData (hρ : ∀ b, ρ b b) (h : Similar ρ s t) (u : FrameUse) :
    SimilarRes ρ (statusData u s) (statusData u t) := by
  have hcfg : t.cfg = s.cfg := by obtain ⟨x, rfl, -⟩ := h; rfl
  unfold Machine.statusData
  rw [hcfg]
  exact h.xferChk fun rx => ((h.map (blind_xfer _)).setSr (hρ rx)).map (blind_goto _)

theorem Similar.readData (h : Similar ρ s t) (u : FrameUse) : SimilarRes ρ (readData u s) (readData u t) := by
  have hsame : t.cfg = s.cfg ∧ t.hasPlace = s.hasPlace ∧ t.srcByte t.cur.i = s.srcByte s.cur.i := by
    obtain ⟨x, rfl, -⟩ := h
    exact ⟨rfl, rfl, rfl⟩
  obtain ⟨hcfg, hplace, hsrc⟩ := hsame
  cases u with
  | read =>
    simp only [Machine.readData, hcfg, hplace]
    split
    · exact h.xferChk fun rx => ((h.map (blind_xfer _)).map (blind_keepByte rx)).map (blind_nextData _)
    · rfl
  | compare =>
    simp only [Machine.readData, hcfg, hsrc]
    split
    · exact h.xferChk fun rx => (h.map (blind_xfer _)).map (blind_compareByte _ _ rx)
    · rfl
  | _ => rfl

theorem Similar.writeData (h : Similar ρ s t) (u : FrameUse) : SimilarRes ρ (writeData u s) (writeData u t) := by
  have hsrc : t.srcByte (t.cur.k + t.cur.i) = s.srcByte (s.cur.k + s.cur.i) := by
    obtain ⟨x, rfl, -⟩ := h
    rfl
  unfold Machine.writeData
  rw [hsrc]
  split
  · exact h.xferChk fun _ => (h.map (blind_xfer _)).map (blind_nextData u)
  · rfl

/-- After a poll frame bit 0 of the status byte decides (R44). -/
theorem Similar.afterFrame (hready : ∀ b d, ρ b d → chipReady d = chipReady b) (h : Similar ρ s t) (u : FrameUse) :
    Similar ρ (s.afterFrame u) (t.afterFrame u) := by
  cases u with
  | poll r =>
    simp only [State.afterFrame, State.afterPoll, hready _ _ h.sr]
    exact h.map (blind_goto _)
  | compare =>
    exact h.map (Blind.ite (p := fun s => s.cur.k = s.cur.segLen) (fun _ _ => Iff.rfl) blind_nextSegment (blind_goto _))
  | write => exact h.map blind_nextSegment
  | _ => exact h.map (blind_goto _)

theorem Similar.frameStep (hready : ∀ b d, ρ b d → chipReady d = chipReady b) (h : Similar ρ s t) (op : Byte)
    {data : FrameUse → State → Res} (hdata : ∀ u, SimilarRes ρ (data u s) (data u t)) :
    SimilarRes ρ (frameStep op data s) (frameStep op data t) := by
  unfold Machine.frameStep
  rw [h.phase]
  cases s.phase with
  | frame u pt =>
    simp only [h.frameOp]
    split
    · cases pt with
      | csLow => exact h.map (blind_openFrame u)
      | txnBegin =>
        have hbus : t.env.busFree = s.env.busFree := by obtain ⟨x, rfl, -⟩ := h; rfl
        simp only [hbus]
        split
        · exact h.map (f := fun s => s.txnBegin.goto _) fun _ _ => ⟨rfl, rfl, rfl⟩
        · exact h
      | opcode => exact h.xferChk fun _ => (h.map (blind_xfer op)).map (blind_enterAddr u 0)
      | addr j =>
        simp only [h.frameAddr]
        split
        · exact h.xferChk fun _ => (h.map (blind_xfer _)).map (blind_enterAddr u (j + 1))
        · rfl
      | data => exact hdata u
      | csHigh failed =>
        cases failed
        · exact (h.map blind_csHigh).map (blind_goto _)
        · exact (h.map (blind_csCut u)).map (blind_goto _)
      | txnEnd failed =>
        cases failed
        · exact (h.map blind_txnEnd).afterFrame hready u
        · exact (h.map blind_txnEnd).map (blind_goto _)
    · rfl
  | _ => rfl

/-! ### Every instruction -/

/-- An instruction answers similar outcomes to similar states: it looks at bit 0 of the status byte alone. -/
theorem Similar.exec (hρ : ∀ b, ρ b b) (hready : ∀ b d, ρ b d → chipReady d = chipReady b) (h : Similar ρ s t) (i : Instr) :
    SimilarRes ρ (exec i s) (exec i t) := by
  have hlat : t.lat = s.lat := by obtain ⟨x, rfl, -⟩ := h; rfl
  cases i <;>
    simp only [Machine.exec, execInit, execDeinit, execGetCapacity, execGetPageSize, execReadStatus, execIsReady,
      execWriteEnable, execWriteDisable, execReadByte, execReadBlock, execWriteByte, execWriteBlock, execWritePage,
      execUpdateByte, execUpdateBlock, execUpdatePage, execWireRead, execWireReadA8, execWireWrite, execWireWriteA8,
      execWireRdsr, execWireWren, execWireWrdi, execWireWrsr]
  case init => exact h.runPin (fun _ _ => ⟨rfl, rfl, rfl⟩) fun _ _ => ⟨rfl, rfl, rfl⟩
  case deinit => exact h.runPin (fun _ _ => ⟨rfl, rfl, rfl⟩) fun _ _ => ⟨rfl, rfl, rfl⟩
  case getCapacity | getPageSize => exact h.runAtOnce fun _ _ => ⟨rfl, rfl, rfl⟩
  case readStatus => exact h.runFrames (blind_openFrame _).requireInit ((h.setRdata h.sr).map (blind_succeed 1))
  case isReady =>
    refine h.runFrames (blind_openFrame _).requireInit ?_
    rw [hready _ _ h.sr]
    exact (h.setRdata h.sr).map (blind_succeed _)
  case writeEnable | writeDisable => exact h.runFrames (blind_openFrame _).requireInit (h.map (blind_succeed 1))
  case readByte =>
    have hd : ρ s.cur.d t.cur.d := by obtain ⟨x, rfl, -⟩ := h; exact hρ _
    exact h.runWaiting (Blind.requireInit (Blind.requireThat (fun _ _ => rfl) (blind_startWait _)))
      ((h.setRdata hd).map (blind_succeed 1))
  case readBlock =>
    refine h.runWaiting (Blind.requireInit (Blind.requireThat (fun _ _ => rfl)
      (blind_startWait _).unlessEmpty.requireBuf)) ?_
    rw [hlat]
    exact h.map (blind_succeed _)
  case writeByte | updateByte =>
    exact h.runWaiting (Blind.requireInit (Blind.requireThat (fun _ _ => rfl)
      (blind_beginSegments fun _ _ => ⟨rfl, rfl, rfl⟩))) (h.map (blind_succeed 1))
  case writeBlock | writePage | updateBlock | updatePage =>
    refine h.runWaiting (Blind.requireInit (Blind.requireThat (fun _ _ => rfl)
      (blind_beginSegments fun _ _ => ⟨rfl, rfl, rfl⟩).unlessEmpty.requireBuf)) ?_
    rw [hlat]
    exact h.map (blind_succeed _)
  case wireRead | wireReadA8 => exact h.frameStep hready _ h.readData
  case wireWrite | wireWriteA8 => exact h.frameStep hready _ h.writeData
  case wireRdsr => exact h.frameStep hready _ (h.statusData hρ)
  case wireWren | wireWrdi => exact h.frameStep hready _ fun _ => rfl
  case wireWrsr => rfl

end

/-! ### The two statements -/

/-- Two related outcomes are related in every way that follows for their next states. -/
theorem bothRes_imp {R R' : State → State → Prop} {a b : Res} (h : bothRes R a b)
    (hnext : ∀ t u, a = .next t → b = .next u → R t u → R' t u) : bothRes R' a b := by
  cases a <;> cases b
  case next.next t u => exact hnext t u rfl rfl h
  all_goals exact h

theorem eq_mapRes_of_bothRes {f : State → State} {a b : Res} (h : bothRes (fun t u => u = f t) a b) : b = mapRes f a := by
  cases a <;> cases b
  case next.next t u => exact congrArg _ h
  case fault.fault r r' => exact congrArg _ (Eq.symm h)
  case refused.refused r r' => exact congrArg _ (Eq.symm h)
  all_goals exact h.elim

/-- Two status bytes with one answer to whether the chip is ready (10_state.md R44). -/
def SameReady (b d : Byte) : Prop := chipReady d = chipReady b

/-- Settles O8: two status bytes that agree on bit 0 give similar outcomes, and no instruction writes a holding register. -/
theorem onlyTheReadyBitDecides : Obligations.OnlyTheReadyBitDecides := by
  refine ⟨fun sr => by simp [chipReady], fun i s x y hxy => ?_⟩
  have hready : SameReady x y := congrArg Bool.not hxy.symm
  have h : Similar SameReady { s with cur := { s.cur with sr := x } }
      { s with cur := { s.cur with sr := y } } :=
    ⟨⟨s.regs.addr, s.regs.len, s.regs.wdata, s.regs.clkcfg, s.regs.rdata, y⟩, rfl, rfl, hready⟩
  refine bothRes_imp (h.exec (ρ := SameReady) (fun _ => rfl) (fun _ _ => id) i) fun t u ht hu htu => ?_
  obtain ⟨⟨addr, len, wdata, clkcfg, rdata, sr⟩, rfl, -⟩ := htu
  obtain ⟨haddr, hlen, hwdata, hclkcfg⟩ := exec_holding ht
  obtain ⟨haddr', hlen', hwdata', hclkcfg'⟩ := exec_holding hu
  obtain rfl : addr = t.regs.addr := haddr'.trans haddr.symm
  obtain rfl : len = t.regs.len := hlen'.trans hlen.symm
  obtain rfl : wdata = t.regs.wdata := hwdata'.trans hwdata.symm
  obtain rfl : clkcfg = t.regs.clkcfg := hclkcfg'.trans hclkcfg.symm
  rfl

/-- Settles O10: a write of a holding register, a CMD write, and the simulation with RDATA and the status byte equal. -/
theorem holdingRegistersAreLatched : Obligations.HoldingRegistersAreLatched := by
  refine ⟨fun s r v hv => ?_, fun s r v i hv hp hs hi => ?_, fun i s addr len wdata clkcfg => ?_⟩
  · have hw := wordOfLanes_lanesOf v
    refine ⟨fun hs => ?_, fun hs => ?_, fun hs => ?_, fun hs => ?_⟩ <;>
      rw [step_writeReg hv (by decide) (by decide) (by decide) rfl hs, hw] <;> rfl
  · rw [step_cmd hv hs]
    exact cmdStep_start hp hi
  · have h : Similar Eq s (s.withHolding addr len wdata clkcfg) :=
      ⟨⟨addr, len, wdata, clkcfg, s.regs.rdata, s.cur.sr⟩, rfl, rfl, rfl⟩
    refine eq_mapRes_of_bothRes (bothRes_imp (h.exec (fun _ => rfl) (fun _ _ h => by rw [h]) i) fun t u ht hu htu => ?_)
    obtain ⟨⟨a, l, w, c, d, sr⟩, rfl, hd, hsr⟩ := htu
    dsimp only at hd hsr
    subst hd hsr
    obtain ⟨haddr, hlen, hwdata, hclkcfg⟩ := exec_holding hu
    obtain rfl : a = addr := haddr
    obtain rfl : l = len := hlen
    obtain rfl : w = wdata := hwdata
    obtain rfl : c = clkcfg := hclkcfg
    rfl

end Sys2Proof.Machine
end

section
/-! PROOFS. From a state that meets the invariant the machine never stops (spec/20_memory.md R81, spec/43_write.md R246). -/

namespace Sys2Proof.Machine

/-! ### Frames -/

/-- Only READ and WRITE have an alternate opcode (30_encoding.md R124, R125). -/
theorem wireOp_base (c : Config) (op : Byte) (a : Nat) :
    wireOp c op a = op ∨ wireOp c op a = op ||| 0x08 ∧ (op = opREAD ∨ op = opWRITE) := by
  unfold wireOp
  split
  · rename_i h; exact .inr ⟨rfl, h.2.1⟩
  · exact .inl rfl

/-- The data phase of the opcode that a frame sends. -/
def FrameUse.dataPhase : FrameUse → FrameUse → State → Res
  | .status | .poll _ => statusData
  | .wrenCmd | .wrenSeq | .wrdi => noData
  | .read | .compare => readData
  | .write => writeData

/-- The opcode of a frame is fetched as an instruction that takes that frame's step. -/
theorem fetch_frameStep {u : FrameUse} {pt : FramePoint} {s : State} (hp : s.phase = .frame u pt) :
    ∃ j, fetch s = some j ∧ exec j s = frameStep (s.frameOp u) u.dataPhase s := by
  rw [fetch_frame hp, State.frameOp]
  rcases wireOp_base s.cfg u.baseOp (s.frameTarget u) with h | ⟨h, hbase⟩ <;> rw [h]
  · cases u <;> exact ⟨_, rfl, rfl⟩
  · cases u with
    | read | compare | write => exact ⟨_, rfl, rfl⟩
    | status | poll | wrenCmd | wrenSeq | wrdi => exact absurd hbase (by simp only [FrameUse.baseOp]; decide)

/-- A byte of the current segment has a source: `cData`, or a BUF byte that exists. -/
theorem State.segOk.srcByte {s : State} (h : s.segOk) {j : Nat} (hj : j < s.cur.segLen) : ∃ b, s.srcByte j = some b := by
  obtain ⟨-, hrem, -, -, -, hbuf⟩ := h
  unfold State.srcByte
  split
  · exact ⟨_, rfl⟩
  · have := hbuf (by simp_all)
    rw [if_pos (by omega)]
    exact ⟨_, rfl⟩

/-- A received byte of a read command has a place. -/
theorem State.readOk.hasPlace {s : State} (h : s.readOk) (hi : s.cur.i < s.readLen) : s.hasPlace = true := by
  obtain ⟨-, -, hbuf⟩ := h
  unfold State.hasPlace
  unfold State.readLen at hi
  cases hb : isByteCommand s.command with
  | true => rfl
  | false =>
    simp only [hb, Bool.false_eq_true, if_false] at hi
    simpa using lt_of_lt_of_le hi (hbuf hb)

/-- The data phase of a frame with its range checked finds every byte it needs. -/
theorem dataPhase_answers {u : FrameUse} {s : State} (hrange : s.useOk u) (hidx : s.indexOk u .data) :
    ∃ t, u.dataPhase u s = .next t := by
  obtain ⟨hdata, hi, -⟩ := hidx
  cases u with
  | status | poll r => exact ⟨_, rfl⟩
  | wrenCmd | wrenSeq | wrdi => exact nomatch hdata
  | read => exact ⟨_, if_pos (State.readOk.hasPlace hrange (hi (by simp)))⟩
  | compare =>
    obtain ⟨new, hnew⟩ := State.segOk.srcByte hrange (hi (by simp))
    exact ⟨_, by simp only [FrameUse.dataPhase, readData, hnew]; rfl⟩
  | write =>
    have hlt : s.cur.i < s.cur.segLen - s.cur.k := hi (by simp)
    obtain ⟨b, hb⟩ := State.segOk.srcByte hrange.1 (j := s.cur.k + s.cur.i) (by omega)
    exact ⟨_, by simp only [FrameUse.dataPhase, writeData, hb]; rfl⟩

/-- A frame's step answers at each of its program points. -/
theorem frameStep_answers {data : FrameUse → State → Res} {u : FrameUse} {pt : FramePoint} {s : State}
    (hp : s.phase = .frame u pt) (hidx : s.indexOk u pt) (hdata : s.indexOk u .data → ∃ t, data u s = .next t) :
    ∃ t, frameStep (s.frameOp u) data s = .next t := by
  simp only [frameStep, hp, if_true]
  cases pt with
  | csLow | opcode => exact ⟨_, rfl⟩
  | txnBegin =>
    by_cases hfree : s.env.busFree = true
    · exact ⟨_, if_pos hfree⟩
    · exact ⟨_, if_neg hfree⟩
  | addr j =>
    have hj : j < (s.frameAddr u).length := hidx
    exact ⟨_, by simp only [List.getElem?_eq_getElem hj]; rfl⟩
  | data => exact hdata hidx
  | csHigh failed | txnEnd failed => cases failed <;> exact ⟨_, rfl⟩

/-! ### Host commands -/

/-- A command that waits has the shape of one. -/
theorem exec_waiting {i : Instr} {r : WaitRet} (h : waitsFor i r = true) :
    ∃ body done, ∀ s, exec i s = runWaiting body done s := by
  cases i with
  | readByte | readBlock | writeByte | writeBlock | writePage | updateByte | updateBlock | updatePage =>
    exact ⟨_, _, fun _ => rfl⟩
  | _ => cases r <;> exact nomatch h

/-- A command with bus activity has frames, and it waits or not. -/
theorem exec_bus {i : Instr} (h : isBusCommand i = true) :
    ∃ body done, (∀ s, exec i s = runFrames body done s) ∨ ∀ s, exec i s = runWaiting body done s := by
  cases i with
  | readStatus | isReady | writeEnable | writeDisable => exact ⟨_, _, .inl fun _ => rfl⟩
  | readByte | readBlock | writeByte | writeBlock | writePage | updateByte | updateBlock | updatePage =>
    exact ⟨_, _, .inr fun _ => rfl⟩
  | _ => exact nomatch h

/-- A command with bus activity answers at its checks, its completion and its failure. -/
theorem bus_answers {i : Instr} {s : State} (hi : isBusCommand i = true)
    (hp : s.phase = .check ∨ s.phase = .complete ∨ ∃ c, s.phase = .failing c) : ∃ t, exec i s = .next t := by
  obtain ⟨body, done, h | h⟩ := exec_bus hi <;> rw [h]
  · rcases hp with hp | hp | ⟨c, hp⟩ <;> exact ⟨_, by rw [runFrames, hp]⟩
  · rcases hp with hp | hp | ⟨c, hp⟩ <;> exact ⟨_, by rw [runWaiting, hp]⟩

/-- Every host command runs its checks. -/
theorem exec_check {i : Instr} {s : State} (hi : i.space = .host) (hp : s.phase = .check) : ∃ t, exec i s = .next t := by
  cases i with
  | wireRead | wireReadA8 | wireWrite | wireWriteA8 | wireRdsr | wireWren | wireWrdi | wireWrsr => exact nomatch hi
  | init | deinit => exact ⟨_, by simp only [exec, execInit, execDeinit, runPin, hp]; rfl⟩
  | getCapacity | getPageSize => exact ⟨_, by simp only [exec, execGetCapacity, execGetPageSize, runAtOnce, hp]; rfl⟩
  | readStatus | isReady | writeEnable | writeDisable | readByte | readBlock | writeByte | writeBlock | writePage | updateByte
  | updateBlock | updatePage => exact bus_answers rfl (.inl hp)

/-- A command answers at each of its program points outside a frame. -/
theorem command_answers {i : Instr} {s : State} (hi : i.space = .host) (hpoint : s.pointOk i s.phase)
    (hframe : ∀ u pt, s.phase ≠ .frame u pt) : ∃ t, exec i s = .next t := by
  cases hp : s.phase with
  | frame u pt => exact absurd hp (hframe u pt)
  | check => exact exec_check hi hp
  | idle => rw [hp] at hpoint; exact hpoint.elim
  | pin =>
    rw [hp] at hpoint
    rcases hpoint with ⟨rfl, -⟩ | ⟨rfl, -⟩ <;> exact ⟨_, by simp only [exec, execInit, execDeinit, runPin, hp]; rfl⟩
  | waitT0 r | pollT r | pollY r =>
    rw [hp] at hpoint
    obtain ⟨-, -, hwaits, -⟩ := hpoint
    obtain ⟨body, done, h⟩ := exec_waiting hwaits
    exact ⟨_, by rw [h, runWaiting, hp]⟩
  | complete =>
    rw [hp] at hpoint
    obtain ⟨-, -, hbus⟩ := hpoint
    exact bus_answers hbus (.inr (.inl hp))
  | failing c =>
    rw [hp] at hpoint
    obtain ⟨-, -, hbus, -⟩ := hpoint
    exact bus_answers hbus (.inr (.inr ⟨c, hp⟩))

/-! ### The step -/

/-- Where the invariant holds, the sequencer has an instruction at its program point, and it answers. -/
theorem Inv.seqStep_answers {s : State} (h : Inv s) : ∃ t, seqStep s = .next t := by
  by_cases hp : s.phase = .idle
  · exact ⟨s, seqStep_idle hp⟩
  · obtain ⟨i, hi, hpoint⟩ := h.running hp
    by_cases hframe : ∃ u pt, s.phase = .frame u pt
    · obtain ⟨u, pt, hu⟩ := hframe
      rw [hu] at hpoint
      obtain ⟨-, -, -, hok⟩ := hpoint
      obtain ⟨hrange, hidx⟩ := (s.frameOk_iff u pt).1 hok
      obtain ⟨j, hj, hexec⟩ := fetch_frameStep hu
      rw [seqStep_run hp hj, hexec]
      exact frameStep_answers hu hidx (dataPhase_answers hrange)
    · have hout : ∀ u pt, s.phase ≠ .frame u pt := fun u pt hu => hframe ⟨u, pt, hu⟩
      rw [seqStep_run hp (by rw [fetch_command hp hout, hi])]
      exact command_answers (decodeHost_encode (hostInstr_decodes hi).1).1 hpoint hout

/-- A CMD write starts a legal command, whose checks answer, and is recorded otherwise. -/
theorem cmdStep_answers (v : Word) (s : State) : ∃ t, cmdStep v s = .next t := by
  by_cases hp : s.phase = .idle
  · cases hi : hostInstr s.cfg (v.setWidth 8) with
    | none => exact ⟨_, cmdStep_illegal hp hi⟩
    | some i =>
      rw [cmdStep_start hp hi]
      exact exec_check (decodeHost_encode (hostInstr_decodes hi).1).1 rfl
  · exact ⟨_, cmdStep_busy hp⟩

theorem hostStep_answers (op : HostOp) (s : State) : ∃ t, hostStep op s = .next t := by
  unfold hostStep
  split
  · exact cmdStep_answers _ s
  · cases op <;> exact ⟨_, rfl⟩

/-- Settles O52, by cases on who moves: the agents always answer, and the sequencer by its program point. -/
theorem invariantStatesNeverStop : Obligations.InvariantStatesNeverStop := by
  intro s h
  simp only [step, h.cfg, if_true]
  split
  · exact h.seqStep_answers
  · exact (h.setSched _).seqStep_answers
  · split
    · exact h.seqStep_answers
    · exact ⟨_, rfl⟩
  · exact hostStep_answers _ _
  · exact ⟨_, rfl⟩
  · exact ⟨_, rfl⟩

end Sys2Proof.Machine
end

section
/-! PROOFS. What a step of a wire opcode leaves alone (spec/20_memory.md R89, spec/30_encoding.md R134). -/

namespace Sys2Proof.Machine

/-- A BUF byte other than the one a READ_BLOCK receives stays. -/
theorem BufNext.bufByte {s t : State} (h : BufNext s t) (hepoch : t.env.epoch = s.env.epoch) {b : Nat}
    (hb : s.phase = .frame .read .data → isByteCommand s.command = false → s.xferAnswer.ok = true → b ≠ s.cur.i) :
    t.bufByte b = s.bufByte b := by
  unfold State.bufByte
  rw [hepoch]
  rcases h with hbuf | ⟨hp, hblock, hok, hbuf⟩ <;> rw [hbuf]
  rw [Memory.get?_set_ne _ _ (hb hp hblock hok)]

/-- Settles O44: `Keeps` has all but BUF, of which a step writes the byte a READ_BLOCK receives, if any. -/
theorem wireOpcodesLeaveTheRest : Obligations.WireOpcodesLeaveTheRest := by
  intro i s t hi h
  obtain ⟨hkeep, hphase, hbuf⟩ := wire_next hi h
  refine ⟨hkeep.cfg, hkeep.regs, hkeep.fault, hkeep.initDone, hkeep.clockHz, hkeep.lat, hkeep.hostData, hphase, hkeep.sched,
    hkeep.busFree, hkeep.epoch, fun a ha b hb => ?_, fun hread b => ?_⟩
  · refine hbuf.bufByte hkeep.epoch fun hp hblock hok => ?_
    rw [if_pos ⟨hp, hok, hblock⟩] at ha
    exact Option.some.inj ha ▸ hb
  · exact hbuf.bufByte hkeep.epoch fun hp hblock hok => absurd ⟨hp, hok, hblock⟩ hread

end Sys2Proof.Machine
end

section
/-! PROOFS. The reference responder (spec/20_memory.md R88, R100 to R106, spec/60_exceptions.md R306). -/

namespace Sys2Proof.Machine

/-! ### The write-enable latch (20_memory.md R103, R104) -/

/-- A frame without a failed transfer ends with `CS(1)`. -/
theorem frameStep_csHigh {data : FrameUse → State → Res} {u : FrameUse} {s : State} (hp : s.phase = .frame u (.csHigh false)) :
    frameStep (s.frameOp u) data s = .next (s.csHigh.goto (.frame u (.txnEnd false))) := by
  simp only [frameStep, hp, if_true]

theorem Responder.onCsHigh_wren {r : Responder} {rest : List Byte} (c : Config) (h : r.heard = some (0x06 :: rest)) :
    r.onCsHigh c = { r with heard := none, wel := if r.wip then r.wel else true } := by
  have hop : decodeWire 0x06 = some .wireWren := rfl
  cases hw : r.wip <;> simp only [Responder.onCsHigh, h, hop, hw, if_true, Bool.false_eq_true, if_false]

theorem Responder.onCsHigh_wrdi {r : Responder} {rest : List Byte} (c : Config) (h : r.heard = some (0x04 :: rest)) :
    r.onCsHigh c = { r with heard := none, wel := if r.wip then r.wel else false } := by
  have hop : decodeWire 0x04 = some .wireWrdi := rfl
  cases hw : r.wip <;> simp only [Responder.onCsHigh, h, hop, hw, if_true, Bool.false_eq_true, if_false]

/-- Settles O59: `CS(1)` is the step, and the responder takes the opcode's effect at it. -/
theorem wrenAndWrdiSetTheLatch : Obligations.WrenAndWrdiSetTheLatch := by
  intro s r u rest hchip
  refine ⟨fun hu hp hheard => ⟨s.csHigh.goto (.frame u (.txnEnd false)), ?_, ?_⟩,
    fun hp hheard => ⟨s.csHigh.goto (.frame .wrdi (.txnEnd false)), ?_, ?_⟩⟩
  · have hop : s.frameOp u = 0x06 := by
      rcases hu with rfl | rfl <;> exact wireOp_other s.cfg 0 (by decide) (by decide)
    rw [← frameStep_csHigh hp, hop]
    rfl
  · simp [State.csHigh, hchip, Responder.onCsHigh_wren s.cfg hheard]
  · have hop : s.frameOp .wrdi = 0x04 := wireOp_other s.cfg 0 (by decide) (by decide)
    rw [← frameStep_csHigh hp, hop]
    rfl
  · simp [State.csHigh, hchip, Responder.onCsHigh_wrdi s.cfg hheard]

/-! ### The bytes of a frame (30_encoding.md R122 to R128) -/

theorem Responder.foldl_hear (l : List Byte) (r : Responder) :
    l.foldl (fun q tx => q.hear tx) r = { r with heard := r.heard.map (· ++ l) } := by
  induction l generalizing r with
  | nil => simp
  | cons b l ih =>
    rw [List.foldl_cons, ih]
    simp [Responder.hear, Function.comp_def]

/-- The responder has heard the bytes sent since `CS(0)`. -/
theorem Responder.foldl_hear_onCsLow (l : List Byte) (r : Responder) :
    l.foldl (fun q tx => q.hear tx) r.onCsLow = { r with heard := some l } :=
  Responder.foldl_hear l r.onCsLow

/-- WRITE goes out as WRITE or, on a NINE_BIT device, as WRITE_A8. -/
theorem decodeWire_write (c : Config) (a : Nat) : decodeWire (wireOp c opWRITE a) = some .wireWrite ∨
    decodeWire (wireOp c opWRITE a) = some .wireWriteA8 ∧ c.nineBit = true := by
  unfold wireOp
  split
  · rename_i h; exact .inr ⟨rfl, h.1⟩
  · exact .inl rfl

/-- READ goes out as READ or, on a NINE_BIT device, as READ_A8. -/
theorem decodeWire_read (c : Config) (a : Nat) : decodeWire (wireOp c opREAD a) = some .wireRead ∨
    decodeWire (wireOp c opREAD a) = some .wireReadA8 ∧ c.nineBit = true := by
  unfold wireOp
  split
  · rename_i h; exact .inr ⟨rfl, h.1⟩
  · exact .inl rfl

/-- Bit 3 of the opcode sent is bit 8 of the address on a NINE_BIT device (30_encoding.md R124). -/
theorem wireOp_bit3 {c : Config} {op : Byte} (a : Nat) (hop : op = opREAD ∨ op = opWRITE) (h9 : c.nineBit = true) :
    (wireOp c op a).getLsbD 3 = a.testBit 8 := by
  unfold wireOp
  cases ha : a.testBit 8 <;> rcases hop with rfl | rfl <;> simp [h9, opREAD, opWRITE]

/-- The receiver forms the sender's address (20_memory.md R105, 30_encoding.md R122 to R124). -/
theorem addrOf_addrBytes {c : Config} {op : Byte} {a : Nat} (hcap : c.cap ≤ 2 ^ 24) (ha : a < c.cap)
    (hop : op = opREAD ∨ op = opWRITE) : addrOf c (wireOp c op a) (addrBytes c a) = a := by
  unfold addrOf
  cases h9 : c.nineBit with
  | true =>
    have h := of_decide_eq_true h9
    rw [wireOp_bit3 a hop h9, addrBytes, if_neg (by omega), if_neg (by omega), Nat.testBit_eq_decide_div_mod_eq]
    simp only [List.nil_append, List.foldl_cons, List.foldl_nil, addrByte, BitVec.toNat_ofNat, Bool.true_and,
      decide_eq_true_eq]
    split <;> omega
  | false =>
    have h := of_decide_eq_false h9
    simp only [addrBytes, addrByte, Bool.false_and, Bool.false_eq_true, if_false]
    split
    · rw [if_pos (by omega)]
      simp only [List.cons_append, List.nil_append, List.foldl_cons, List.foldl_nil, BitVec.toNat_ofNat]
      omega
    · split
      · simp only [List.cons_append, List.nil_append, List.foldl_cons, List.foldl_nil, BitVec.toNat_ofNat]
        omega
      · simp only [List.nil_append, List.foldl_cons, List.foldl_nil, BitVec.toNat_ofNat]
        omega

/-! ### Bytes stored at rising addresses -/

theorem arrayByte_bytesFrom {m : Memory} {a j : Nat} {d : List Byte} {b : Byte} (h : d[j]? = some b) :
    arrayByte (m.setAll (bytesFrom a d)) (a + j) = b := by
  have hj := (List.getElem?_eq_some_iff.1 h).1
  obtain ⟨v, hv, hget⟩ := Memory.get?_setAll_mem (m := m) (bytesFrom_addr (l := d).2 ⟨Nat.le_add_right a j, by omega⟩)
  obtain ⟨k, hk, hd⟩ := mem_bytesFrom.1 hv
  obtain rfl : j = k := by omega
  simp [arrayByte, hget, Option.some.inj (hd.symm.trans h)]

theorem arrayByte_bytesFrom_outside {m : Memory} {a x : Nat} {d : List Byte} (h : x < a ∨ a + d.length ≤ x) :
    arrayByte (m.setAll (bytesFrom a d)) x = arrayByte m x := by
  have hout : ∀ c ∈ bytesFrom a d, c.1 ≠ x := fun c hc hx => by
    have := bytesFrom_addr.1 ⟨c, hc, hx⟩
    omega
  simp only [arrayByte, Memory.get?_setAll_ne hout]

/-- A page image that does not pass the end of its page does not wrap (20_memory.md R106). -/
theorem pageImage_eq_bytesFrom {page a : Nat} {j : Nat} {d : List Byte} (h : a % page + j + d.length ≤ page) :
    Responder.pageImage page a j d = bytesFrom (a + j) d := by
  induction d generalizing j with
  | nil => rfl
  | cons b d ih =>
    rw [List.length_cons] at h
    have hle := Nat.mod_le a page
    rw [Responder.pageImage, bytesFrom, ih (by omega), Nat.mod_eq_of_lt (a := a % page + j) (by omega),
      show a - a % page + (a % page + j) = a + j by omega, Nat.add_assoc]

/-! ### WRITE and READ frames -/

/-- At `CS(1)` a frame with a WRITE opcode takes the effect of the bytes after it. -/
theorem Responder.onCsHigh_write {c : Config} {a : Nat} {rest : List Byte} {r : Responder}
    (h : r.heard = some (wireOp c opWRITE a :: rest)) :
    r.onCsHigh c = { r with heard := none }.afterWrite c (wireOp c opWRITE a) rest := by
  rcases decodeWire_write c a with hop | ⟨hop, h9⟩
  · simp only [Responder.onCsHigh, h, hop]
  · simp only [Responder.onCsHigh, h, hop, h9, if_true]

/-- A READ frame's j-th data byte is the array byte at a + j (20_memory.md R105). -/
theorem Responder.answer_read {c : Config} {a j : Nat} {r : Responder} (hcap : c.cap ≤ 2 ^ 24) (ha : a + j < c.cap)
    (hwip : r.wip = false) (h : r.heard = some (frameBytes c (.read a j))) : r.answer c = r.byteAt (a + j) := by
  have hrest : Responder.answer.readAnswer c r (wireOp c opREAD a) (addrBytes c a ++ List.replicate j c.dummyTx) =
      r.byteAt (a + j) := by
    have hlen := addrBytes_length c a
    rw [Responder.answer.readAnswer, if_neg (by simp [hwip, hlen]), List.take_left' hlen,
      addrOf_addrBytes hcap (by omega) (.inl rfl), List.length_append, hlen, List.length_replicate, Nat.add_sub_cancel_left,
      Nat.mod_eq_of_lt ha]
  rcases decodeWire_read c a with hop | ⟨hop, h9⟩
  · simp only [Responder.answer, h, frameBytes, hop, hrest]
  · simp only [Responder.answer, h, frameBytes, hop, h9, if_true, hrest]

/-- The responder after a WRITE frame that it accepts, without a busy poll. -/
theorem Responder.frame_write {c : Config} {a : Nat} {d : List Byte} {r : Responder} (hcap : c.cap ≤ 2 ^ 24)
    (hd : d ≠ []) (hrange : a + d.length ≤ c.cap) (hpage : a % c.page + d.length ≤ c.page) (hwel : r.wel = true)
    (hwip : r.wip = false) (hpolls : r.busyPolls = some 0) :
    r.frame c (frameBytes c (.write a d)) =
      { r with
        array := r.array.setAll (bytesFrom a d), pend := [], wel := false, wip := false, busyLeft := some 0, heard := none } := by
  have hlen := addrBytes_length c a
  have hpos := List.length_pos_iff.2 hd
  rw [Responder.frame, Responder.foldl_hear_onCsLow, Responder.onCsHigh_write (rest := addrBytes c a ++ d) rfl]
  simp [Responder.afterWrite, Responder.endCycle, hwel, hwip, hpolls, hd, List.take_left' hlen,
    List.drop_left' hlen, addrOf_addrBytes hcap (show a < c.cap by omega) (.inr rfl), pageImage_eq_bytesFrom (j := 0) hpage]

/-! ### Frames cut short -/

theorem Responder.afterWrite_refused {c : Config} {op : Byte} {rest : List Byte} {r : Responder}
    (h : r.wel = false ∨ r.wip = true) : r.afterWrite c op rest = r := by
  rw [Responder.afterWrite, if_neg]
  rcases h with h | h <;> simp [h]

/-- A responder that does not accept a WRITE frame takes nothing from it, however much of it it hears. -/
theorem Responder.onCsHigh_refused {c : Config} {a m : Nat} {d : List Byte} {r : Responder} (hr : r.wel = false ∨ r.wip = true)
    (h : r.heard = some ((frameBytes c (.write a d)).take m)) : r.onCsHigh c = { r with heard := none } := by
  cases m with
  | zero => simp only [Responder.onCsHigh, h, List.take_zero]
  | succ m =>
    rw [Responder.onCsHigh_write (a := a) (h.trans (congrArg some List.take_succ_cons))]
    exact Responder.afterWrite_refused hr

theorem Responder.afterStatus_heard (r : Responder) : r.afterStatus.heard = r.heard := by
  unfold Responder.afterStatus
  split
  · split
    · rfl
    · dsimp only
      split <;> rfl
  · rfl

theorem Responder.afterWrite_heard (c : Config) (op : Byte) (rest : List Byte) (r : Responder) :
    (r.afterWrite c op rest).heard = r.heard := by
  unfold Responder.afterWrite
  dsimp only
  split
  · split <;> rfl
  · rfl

/-- No frame is open after `CS(1)`. -/
theorem Responder.onCsHigh_heard (c : Config) (r : Responder) : (r.onCsHigh c).heard = none := by
  unfold Responder.onCsHigh
  dsimp only
  split
  · rfl
  · rfl
  · split
    · exact Responder.afterStatus_heard _
    · split <;> rfl
    · split <;> rfl
    · exact Responder.afterWrite_heard c _ _ _
    · split
      · exact Responder.afterWrite_heard c _ _ _
      · rfl
    · rfl

theorem Responder.onCutShort_heard (c : Config) (n : Nat) (range : Memory) (r : Responder) :
    (r.onCutShort c n range).heard = none := by
  unfold Responder.onCutShort
  dsimp only
  split <;> exact Responder.onCsHigh_heard c _

/-- Of the first bytes of a frame the chip has heard the last one or not: it has heard the first bytes of the frame. -/
theorem Responder.unsure_heard {m : Nat} {l : List Byte} {r : Responder} (n : Nat) (h : r.heard = some (l.take m)) :
    ∃ k, (r.unsure n).heard = some (l.take k) := by
  unfold Responder.unsure
  dsimp only
  split
  · exact ⟨m, h⟩
  · exact ⟨_, by rw [h, Option.map_some, List.dropLast_eq_take, List.take_take]⟩

/-- A WRITE frame cut short leaves a responder that does not accept it as it was. -/
theorem Responder.onCutShort_refused {c : Config} {a m n : Nat} {d : List Byte} {range : Memory} {r : Responder}
    (hr : r.wel = false ∨ r.wip = true) (h : r.heard = some ((frameBytes c (.write a d)).take m)) :
    r.onCutShort c n range = { r with heard := none } := by
  obtain ⟨k, hk⟩ := Responder.unsure_heard n h
  rw [Responder.onCutShort, if_neg fun hacc => by simp [hacc.2.1, hacc.2.2] at hr]
  exact Responder.onCsHigh_refused (r := r.unsure n) hr hk

/-- A WRITE frame cut short leaves in the array of a responder that accepts it each byte of its range old or new. -/
theorem Responder.onCutShort_accepted {c : Config} {n : Nat} {range : Memory} {r : Responder} (hrange : range ≠ [])
    (hwel : r.wel = true) (hwip : r.wip = false) :
    (r.onCutShort c n range).array = r.array.setAll (mixed n r.byteAt range) := by
  rw [Responder.onCutShort, if_pos ⟨hrange, hwel, hwip⟩]

section
variable {m : Memory} {n a : Nat} {d : List Byte}

/-- Where each byte of a range is old or new, a byte outside the range is the old one. -/
theorem arrayByte_mixed_outside {old : Nat → Byte} {x : Nat} (h : x < a ∨ a + d.length ≤ x) :
    arrayByte (m.setAll (mixed n old (bytesFrom a d))) x = arrayByte m x := by
  rcases arrayByte_mixed (m := m) (l := bytesFrom a d) (n := n) (old := old) x with ⟨-, hsame⟩ | ⟨v, hv, -⟩
  · exact hsame
  · have := bytesFrom_addr.1 ⟨_, hv, rfl⟩
    omega

/-- Where each byte of a range is old or new, a byte inside the range is the array's or the new one. -/
theorem arrayByte_mixed_inside {j : Nat} {b : Byte} (h : d[j]? = some b) :
    arrayByte (m.setAll (mixed n (arrayByte m) (bytesFrom a d))) (a + j) = arrayByte m (a + j) ∨
      arrayByte (m.setAll (mixed n (arrayByte m) (bytesFrom a d))) (a + j) = b := by
  rcases arrayByte_mixed (m := m) (l := bytesFrom a d) (n := n) (old := arrayByte m) (a + j) with
    ⟨-, hsame⟩ | ⟨v, hv, hbyte⟩
  · exact .inl hsame
  · obtain ⟨k, hk, hd⟩ := mem_bytesFrom.1 hv
    obtain rfl : j = k := by omega
    obtain rfl := Option.some.inj (hd.symm.trans h)
    exact hbyte.symm

end

/-- Settles O60: the array after a whole frame and after one cut short, as an array with the frame's bytes stored over it. -/
theorem responderReadsBackWhatWasWritten : Obligations.ResponderReadsBackWhatWasWritten := by
  intro c r a d hv hwf
  have hcap : c.cap ≤ 2 ^ 24 := (of_decide_eq_true hv).2.1
  obtain ⟨hpos, hrange, hpage⟩ := of_decide_eq_true hwf
  have hd : d ≠ [] := List.length_pos_iff.1 hpos
  refine ⟨fun hwel hwip hpolls => ?_, fun m n q hq => ?_⟩
  · rw [Responder.frame_write hcap hd hrange hpage hwel hwip hpolls]
    refine ⟨rfl, rfl, rfl, fun j b => arrayByte_bytesFrom, fun x => arrayByte_bytesFrom_outside, fun j b hb => ?_⟩
    have hj := (List.getElem?_eq_some_iff.1 hb).1
    rw [Responder.foldl_hear_onCsLow, Responder.answer_read hcap (by omega) rfl rfl]
    exact arrayByte_bytesFrom hb
  · rw [Responder.foldl_hear_onCsLow] at hq
    subst hq
    by_cases hr : r.wel = false ∨ r.wip = true
    · rw [Responder.onCutShort_refused (r := { r with heard := some _ }) hr rfl]
      exact ⟨fun _ _ => rfl, fun _ _ _ => .inl rfl, fun _ => ⟨rfl, rfl, rfl, rfl⟩, rfl⟩
    · obtain ⟨hwel, hwip⟩ : r.wel = true ∧ r.wip = false := by simpa using hr
      have harray := Responder.onCutShort_accepted (c := c) (n := n) (range := bytesFrom a d)
        (r := { r with heard := some ((frameBytes c (.write a d)).take m) }) (mt bytesFrom_eq_nil.1 hd) hwel hwip
      refine ⟨fun x hx => ?_, fun j b hb => ?_, fun hr' => absurd hr' hr, Responder.onCutShort_heard c n _ _⟩
      · rw [Responder.byteAt, harray]
        exact arrayByte_mixed_outside hx
      · rw [Responder.byteAt, harray]
        exact arrayByte_mixed_inside hb

end Sys2Proof.Machine
end

section
/-! PROOFS. Encodings (spec/30_encoding.md R120 to R132, R140, R142): the two decoders, the address encoder, the alternate opcodes
and the frame formats. -/

namespace Sys2Proof.Machine

/-! ### The two decoders (30_encoding.md R120, R140) -/

/-- Settles O1: the words are numerals, and each decodes by evaluation. -/
theorem wordsDecodeToTheTableRows : Obligations.WordsDecodeToTheTableRows := by
  unfold Obligations.WordsDecodeToTheTableRows
  decide

theorem decode_encode (i : Instr) : decode i.space (encode i) = some i := by cases i <;> rfl

theorem decodeHost_of_space {i : Instr} (h : i.space = .host) : decodeHost (encode i) = some i := by
  simpa only [h, decode] using decode_encode i

theorem decodeWire_of_space {i : Instr} (h : i.space = .wire) : decodeWire (encode i) = some i := by
  simpa only [h, decode] using decode_encode i

/-- Settles O2. -/
theorem encodeAndDecodeAgree : Obligations.EncodeAndDecodeAgree := by
  refine ⟨decode_encode, fun sp w i h => ?_⟩
  cases sp with
  | host => exact (decodeHost_encode h).symm
  | wire => exact (decodeWire_encode h).symm

/-! ### Opcode substitution (30_encoding.md R121, R123 to R125) -/

theorem Config.nineBit_iff {c : Config} : c.nineBit = true ↔ 256 < c.cap ∧ c.cap ≤ 512 := decide_eq_true_iff

theorem Config.nineBit_eq_false {c : Config} (h : ¬(256 < c.cap ∧ c.cap ≤ 512)) : c.nineBit = false := decide_eq_false h

theorem wireOp_kept {c : Config} {a : Nat} (op : Byte) (h : c.nineBit = false ∨ a.testBit 8 = false) : wireOp c op a = op := by
  rw [wireOp, if_neg]
  rintro ⟨h9, -, hbit⟩
  rcases h with h | h <;> simp_all

theorem wireOp_alternate {c : Config} {op : Byte} {a : Nat} (h9 : c.nineBit = true) (hop : op = opREAD ∨ op = opWRITE)
    (hbit : a.testBit 8 = true) : wireOp c op a = op ||| 0x08 := if_pos ⟨h9, hop, hbit⟩

/-- Settles O5. -/
theorem opcodeSubstitution : Obligations.OpcodeSubstitution := by
  refine ⟨by decide, fun c a hlo hhi hbit => ?_, fun c a op h => wireOp_kept op (h.imp_left Config.nineBit_eq_false),
    fun c a => ?_⟩
  · have h9 := Config.nineBit_iff.2 ⟨hlo, hhi⟩
    exact ⟨wireOp_alternate h9 (.inl rfl) hbit, wireOp_alternate h9 (.inr rfl) hbit⟩
  · refine ⟨?_, ?_, ?_, ?_⟩ <;> exact wireOp_other c a (by decide) (by decide)

/-! ### Capacity classes (30_encoding.md R122, R123) -/

/-- Off a NINE_BIT device bit 3 of the opcode is that of READ and of WRITE. -/
theorem wireOp_bit3_plain {c : Config} {op : Byte} (a : Nat) (hop : op = opREAD ∨ op = opWRITE) (h9 : c.nineBit = false) :
    (wireOp c op a).getLsbD 3 = false := by
  rw [wireOp_kept op (.inl h9)]
  rcases hop with rfl | rfl <;> rfl

section
variable {c : Config} (a : Nat)

theorem addrBytes_one (h : c.cap ≤ 512) : c.nAddr = 1 ∧ addrBytes c a = [BitVec.ofNat 8 a] := by
  simp [Config.nAddr, addrBytes, addrByte, show ¬65536 < c.cap by omega, show ¬512 < c.cap by omega]

theorem addrBytes_two (hlo : 512 < c.cap) (hhi : c.cap ≤ 65536) :
    c.nAddr = 2 ∧ addrBytes c a = [BitVec.ofNat 8 (a / 256), BitVec.ofNat 8 a] := by
  simp [Config.nAddr, addrBytes, addrByte, hlo, show ¬65536 < c.cap by omega]

theorem addrBytes_three (h : 65536 < c.cap) :
    c.nAddr = 3 ∧ addrBytes c a = [BitVec.ofNat 8 (a / 65536), BitVec.ofNat 8 (a / 256), BitVec.ofNat 8 a] := by
  simp [Config.nAddr, addrBytes, addrByte, h, show 512 < c.cap by omega]

end

/-- Settles O4, class by class. -/
theorem capacityClasses : Obligations.CapacityClasses := by
  intro c a hv ha
  have hcap : c.cap ≤ 2 ^ 24 := (of_decide_eq_true hv).2.1
  have hplain (h : ¬(256 < c.cap ∧ c.cap ≤ 512)) :
      (wireOp c opREAD a).getLsbD 3 = false ∧ (wireOp c opWRITE a).getLsbD 3 = false :=
    have h9 := Config.nineBit_eq_false h
    ⟨wireOp_bit3_plain a (.inl rfl) h9, wireOp_bit3_plain a (.inr rfl) h9⟩
  refine ⟨fun h => ?_, fun ⟨hlo, hhi⟩ => ?_, fun ⟨hlo, hhi⟩ => ?_, fun h => ?_⟩
  · obtain ⟨hn, hbytes⟩ := addrBytes_one a (c := c) (by omega)
    exact ⟨hn, hbytes, by omega, hplain (by omega)⟩
  · obtain ⟨hn, hbytes⟩ := addrBytes_one a hhi
    have h9 := Config.nineBit_iff.2 ⟨hlo, hhi⟩
    exact ⟨hn, hbytes, by omega, wireOp_bit3 a (.inl rfl) h9, wireOp_bit3 a (.inr rfl) h9⟩
  · obtain ⟨hn, hbytes⟩ := addrBytes_two a hlo hhi
    exact ⟨hn, hbytes, by omega, hplain (by omega)⟩
  · obtain ⟨hn, hbytes⟩ := addrBytes_three a h
    exact ⟨hn, hbytes, by omega, hplain (by omega)⟩

/-! ### Frames are read back (30_encoding.md R127 to R130, 20_memory.md R105) -/

theorem parseFrame_read {c : Config} {a n : Nat} (hcap : c.cap ≤ 2 ^ 24) (ha : a < c.cap) (hn : 1 ≤ n) :
    parseFrame c (frameBytes c (.read a n)) = some (.read a n) := by
  have hrest : parseFrame.parseRead c (wireOp c opREAD a) (addrBytes c a ++ List.replicate n c.dummyTx) = some (.read a n) := by
    have hlen := addrBytes_length c a
    rw [parseFrame.parseRead, if_pos (by simp [hlen]; omega), List.take_left' hlen, addrOf_addrBytes hcap ha (.inl rfl)]
    simp [hlen]
  rcases decodeWire_read c a with hop | ⟨hop, h9⟩
  · simp only [parseFrame, frameBytes, hop, hrest]
  · simp only [parseFrame, frameBytes, hop, h9, if_true, hrest]

theorem parseFrame_write {c : Config} {a : Nat} {d : List Byte} (hcap : c.cap ≤ 2 ^ 24) (ha : a < c.cap) (hd : 1 ≤ d.length) :
    parseFrame c (frameBytes c (.write a d)) = some (.write a d) := by
  have hrest : parseFrame.parseWrite c (wireOp c opWRITE a) (addrBytes c a ++ d) = some (.write a d) := by
    have hlen := addrBytes_length c a
    rw [parseFrame.parseWrite, if_pos (by simp [hlen]; omega), List.take_left' hlen, List.drop_left' hlen,
      addrOf_addrBytes hcap ha (.inr rfl)]
  rcases decodeWire_write c a with hop | ⟨hop, h9⟩
  · simp only [parseFrame, frameBytes, hop, hrest]
  · simp only [parseFrame, frameBytes, hop, h9, if_true, hrest]

/-- Settles O3, frame by frame. -/
theorem framesRoundTrip : Obligations.FramesRoundTrip := by
  intro c f hv hwf
  have hcap : c.cap ≤ 2 ^ 24 := (of_decide_eq_true hv).2.1
  cases f with
  | rdsr | wren | wrdi => exact ⟨rfl, rfl⟩
  | read a n =>
    obtain ⟨hn, hrange⟩ := of_decide_eq_true hwf
    refine ⟨parseFrame_read hcap (by omega) hn, ?_⟩
    simp [frameBytes, addrBytes_length]
    omega
  | write a d =>
    obtain ⟨hd, hrange, -⟩ := of_decide_eq_true hwf
    refine ⟨parseFrame_write hcap (by omega) hd, ?_⟩
    simp [frameBytes, addrBytes_length]
    omega

/-! ### The opcodes of the frames (30_encoding.md R131, R132) -/

/-- The opcode a frame goes out with is one of the seven; WRITE and WRITE_A8 are those of a WRITE frame alone. -/
theorem frameOp_sent (s : State) (u : FrameUse) :
    s.frameOp u ∈ sentOpcodes ∧ (s.frameOp u = 0x02 ∨ s.frameOp u = 0x0A → u = .write) := by
  unfold State.frameOp
  rcases wireOp_base s.cfg u.baseOp (s.frameTarget u) with h | ⟨h, hbase⟩ <;> rw [h]
  · cases u with
    | write => exact ⟨by decide, fun _ => rfl⟩
    | _ => exact ⟨by simp only [FrameUse.baseOp]; decide, fun h => absurd h (by simp only [FrameUse.baseOp]; decide)⟩
  · cases u with
    | write => exact ⟨by decide, fun _ => rfl⟩
    | read | compare => exact ⟨by decide, fun h => absurd h (by decide)⟩
    | status | poll | wrenCmd | wrenSeq | wrdi => exact absurd hbase (by simp only [FrameUse.baseOp]; decide)

/-- Settles O42. -/
theorem wrsrIsNeverSent : Obligations.WrsrIsNeverSent :=
  ⟨rfl, fun _ => rfl, fun s u h => absurd (h ▸ (frameOp_sent s u).1) (by decide)⟩

/-! ### Illegal command codes (30_encoding.md R142) -/

/-- A code outside the table, or of an update command where there is none, names no instruction. -/
theorem hostInstr_illegal {c : Config} {code : Byte} {n : Nat} (hn : n = code.toNat)
    (h : n = 0 ∨ (0x05 ≤ n ∧ n ≤ 0x0F) ∨ (0x14 ≤ n ∧ n ≤ 0x1F) ∨ (0x22 ≤ n ∧ n ≤ 0x2F) ∨ (0x33 ≤ n ∧ n ≤ 0x3F) ∨ 0x43 ≤ n ∨
      (c.hasUpdate = false ∧ 0x40 ≤ n ∧ n ≤ 0x42)) : hostInstr c code = none := by
  rw [Option.eq_none_iff_forall_ne_some]
  intro i hi
  obtain ⟨hdec, hwf⟩ := hostInstr_decodes hi
  obtain ⟨hspace, rfl⟩ := decodeHost_encode hdec
  subst hn
  cases i with
  | updateByte | updateBlock | updatePage =>
    rw [show c.hasUpdate = true from hwf] at h
    simp [encode] at h
  | wireRead | wireReadA8 | wireWrite | wireWriteA8 | wireRdsr | wireWren | wireWrdi | wireWrsr => exact nomatch hspace
  | _ => simp [encode] at h

/-- Settles O19. -/
theorem illegalCommandCompletesAtOnce : Obligations.IllegalCommandCompletesAtOnce := by
  intro s r v c hv hp hs hc hill
  have hcode : c = (v.setWidth 8).toNat := by rw [hc, BitVec.toNat_setWidth]
  have hnone : hostInstr (s.setSched r).cfg (v.setWidth 8) = none := hostInstr_illegal hcode hill
  rw [step_cmd hv hs, cmdStep_illegal (s := s.setSched r) hp hnone, raiseFault_illegal (s := s.setSched r) hp]
  rfl

end Sys2Proof.Machine
end

section
/-! PROOFS. Every step keeps the wire protocol (spec/30_encoding.md R126, R132, spec/43_write.md R240, R246): the recogniser of the
trace, the frame engine, the host commands, and who else moves. -/

namespace Sys2Proof.Machine

/-! ### The recogniser -/

@[simp] theorem scan_append (l : List WireEvent) (e : WireEvent) : scan (l ++ [e]) = (scan l).next e := by simp [scan]

/-- No frame is open. -/
def State.Quiet (s : State) : Prop := ∃ w, scan s.trace = .quiet w

/-- The opcode of the frame `u` is out; `ok` says that no transfer of the frame has failed. -/
def State.Sent (u : FrameUse) (ok : Bool) (s : State) : Prop := scan s.trace = .sent (s.frameOp u) ok

/-- Outside a frame the protocol asks only that none is open. -/
theorem scanOk_iff_quiet {s : State} (hp : ∀ u pt, s.phase ≠ .frame u pt) : s.scanOk ↔ s.Quiet := by
  cases hphase : s.phase with
  | frame u pt => exact absurd hphase (hp u pt)
  | _ => simp only [State.scanOk, hphase, State.Quiet]

theorem State.Quiet.goto {s : State} {p : Phase} (h : s.Quiet) (hp : ∀ u pt, p ≠ .frame u pt) : (s.goto p).scanOk :=
  (scanOk_iff_quiet hp).2 h

/-- A frame other than a WRITE may open wherever no frame is open. -/
theorem State.Quiet.goto_csLow {s : State} {u : FrameUse} (h : s.Quiet) (hu : u ≠ .write) : (s.goto (.frame u .csLow)).scanOk := by
  obtain ⟨w, hw⟩ := h
  exact ⟨w, hw, fun hwrite => absurd hwrite hu⟩

/-- The protocol looks at the phase, the trace and the opcodes of the frames alone. -/
theorem State.scanOk.congr {s t : State} (h : s.scanOk) (hphase : t.phase = s.phase) (htrace : t.trace = s.trace)
    (hop : ∀ u, t.frameOp u = s.frameOp u) : t.scanOk := by
  unfold State.scanOk at h ⊢
  simpa only [hphase, htrace, hop] using h

/-! ### After the opcode -/

/-- The opcode does not look at the cursor but for the segment's address and, in a WRITE frame, `k`. -/
theorem frameOp_setCur {c : Cursor} {u : FrameUse} {s : State} (haddr : c.segAddr = s.cur.segAddr)
    (hk : u = .write → c.k = s.cur.k) : (s.setCur c).frameOp u = s.frameOp u := by
  cases u with
  | write => simp [State.frameOp, State.frameTarget, haddr, hk rfl]
  | compare => simp [State.frameOp, State.frameTarget, haddr]
  | _ => rfl

theorem frameOp_wrenSeq (s : State) : s.frameOp .wrenSeq = opWREN := wireOp_other s.cfg 0 (by decide) (by decide)

section
variable {u : FrameUse} {ok : Bool} {s : State}

theorem State.Sent.xfer (h : s.Sent u true) (tx : Byte) : (s.xfer tx).Sent u s.xferAnswer.ok := by
  simp only [State.Sent, State.xfer_trace, scan_append, State.xfer_frameOp, show scan s.trace = _ from h]
  rfl

theorem State.Sent.setCur {c : Cursor} (h : s.Sent u ok) (haddr : c.segAddr = s.cur.segAddr)
    (hk : u = .write → c.k = s.cur.k) : (s.setCur c).Sent u ok :=
  Eq.trans h (by rw [frameOp_setCur haddr hk])

theorem State.Sent.goto_data (h : s.Sent u true) : (s.goto (.frame u .data)).scanOk :=
  Eq.trans h (by rw [State.goto_frameOp])

theorem State.Sent.goto_addr (h : s.Sent u true) (j : Nat) : (s.goto (.frame u (.addr j))).scanOk :=
  Eq.trans h (by rw [State.goto_frameOp])

/-- The closing of a frame still knows a WREN frame by its opcode. -/
theorem State.Sent.goto_csHigh {failed : Bool} (h : s.Sent u (!failed)) : (s.goto (.frame u (.csHigh failed))).scanOk := by
  refine ⟨fun hu => ?_, s.frameOp u, h⟩
  subst hu
  exact h.trans (by rw [frameOp_wrenSeq])

theorem State.Sent.enterAddr (h : s.Sent u true) (j : Nat) : (s.enterAddr u j).scanOk := by
  unfold State.enterAddr
  split
  · exact h.goto_addr j
  · split
    · refine State.Sent.goto_data (h.setCur ?_ fun hu => ?_)
      · rfl
      · subst hu
        rfl
    · exact h.goto_csHigh

theorem State.Sent.nextData (h : s.Sent u true) : (s.nextData u).scanOk := by
  have hnext := h.setCur (c := { s.cur with i := s.cur.i + 1 }) rfl fun _ => rfl
  unfold State.nextData
  split
  · exact hnext.goto_data
  · exact hnext.goto_csHigh

theorem State.Sent.keepByte (h : s.Sent u true) (rx : Byte) : (s.keepByte rx).Sent u true := by
  unfold State.keepByte
  split
  · exact h.setCur rfl fun _ => rfl
  · exact Eq.trans h (by cases u <;> rfl)

theorem State.Sent.compareByte (h : s.Sent .compare true) (new rx : Byte) : (s.compareByte .compare new rx).scanOk := by
  unfold State.compareByte
  split
  · exact h.nextData
  · exact (h.setCur rfl nofun).goto_csHigh

/-- A good transfer goes on with the frame, and a failed one closes it. -/
theorem xferChk_scanOk {tx : Byte} {k : Byte → State → State} (h : (s.xfer tx).Sent u s.xferAnswer.ok)
    (hk : ∀ rx, (s.xfer tx).Sent u true → (k rx (s.xfer tx)).scanOk) : (s.xferChk u tx k).scanOk :=
  State.xferChk_elim (P := State.scanOk) (fun hok => hk _ (hok ▸ h)) fun hok => by
    rw [hok] at h
    exact h.goto_csHigh

end

/-! ### The data phases -/

section
variable {u : FrameUse} {s t : State} (h : s.Sent u true)
include h

theorem statusData_scanOk (hd : statusData u s = .next t) : t.scanOk := by
  obtain rfl := statusData_next hd
  exact xferChk_scanOk (h.xfer _) fun rx hx => (hx.setCur rfl fun _ => rfl).goto_csHigh

theorem readData_scanOk (hd : readData u s = .next t) : t.scanOk := by
  rcases readData_next hd with ⟨rfl, -, rfl⟩ | ⟨rfl, new, -, rfl⟩
  · exact xferChk_scanOk (h.xfer _) fun rx hx => (hx.keepByte rx).nextData
  · exact xferChk_scanOk (h.xfer _) fun rx hx => hx.compareByte new rx

theorem writeData_scanOk (hd : writeData u s = .next t) : t.scanOk := by
  obtain ⟨b, -, rfl⟩ := writeData_next hd
  exact xferChk_scanOk (h.xfer b) fun _ hx => hx.nextData

end

/-! ### The frame engine -/

/-- The opcode is one of the seven, and a WRITE opcode goes out only after a WREN frame. -/
theorem opcode_sent {u : FrameUse} {w : Bool} {s : State} (h : scan s.trace = .begun w) (hw : u = .write → w = true) :
    (s.xfer (s.frameOp u)).Sent u s.xferAnswer.ok := by
  obtain ⟨hsent, hwrite⟩ := frameOp_sent s u
  simp only [State.Sent, State.xfer_trace, scan_append, State.xfer_frameOp, h, Scan.next]
  exact if_pos ⟨hsent, fun hop => hw (hwrite hop)⟩

theorem nextSegment_scanOk {s : State} (h : s.Quiet) : s.nextSegment.scanOk := by
  refine State.Quiet.goto (s := s.setCur _) h fun u pt => ?_
  split
  · simp
  · split <;> simp

/-- What follows a frame that was not cut short: a WRITE frame only after a WREN frame. -/
theorem afterFrame_scanOk {u : FrameUse} {s : State} (h : s.Quiet) (hwren : u = .wrenSeq → scan s.trace = .quiet true) :
    (s.afterFrame u).scanOk := by
  cases u with
  | status | wrenCmd | wrdi | read => exact h.goto nofun
  | wrenSeq => exact ⟨true, hwren rfl, fun _ => rfl⟩
  | write => exact nextSegment_scanOk h
  | compare =>
    unfold State.afterFrame
    dsimp only
    split
    · exact nextSegment_scanOk h
    · exact h.goto nofun
  | poll r =>
    simp only [State.afterFrame, State.afterPoll]
    split
    · exact h.goto_csLow (by cases r <;> exact nofun)
    · exact h.goto nofun

/-- Every step of a frame keeps the protocol, point by point. -/
theorem frameStep_scanOk {op : Byte} {data : FrameUse → State → Res} {s t : State} (hok : s.scanOk)
    (h : frameStep op data s = .next t) (hdata : ∀ u, s.Sent u true → data u s = .next t → t.scanOk) : t.scanOk := by
  obtain ⟨u, pt, hp, rfl, h⟩ := frameStep_next h
  have hat := hok
  simp only [State.scanOk, hp] at hat
  rcases h with ⟨rfl, rfl⟩ | ⟨rfl, -, rfl⟩ | ⟨rfl, -, rfl⟩ | ⟨rfl, rfl⟩ | ⟨j, b, rfl, -, rfl⟩ | ⟨rfl, hd⟩ | ⟨rfl, rfl⟩ |
    ⟨rfl, rfl⟩ | ⟨rfl, rfl⟩ | ⟨rfl, rfl⟩
  · obtain ⟨w, hscan, hw⟩ := hat
    exact ⟨w, by simp [State.openFrame, hscan, Scan.next], hw⟩
  · obtain ⟨w, hscan, hw⟩ := hat
    exact ⟨w, by simp [hscan, Scan.next], hw⟩
  · exact hok
  · obtain ⟨w, hscan, hw⟩ := hat
    exact xferChk_scanOk (opcode_sent hscan hw) fun _ hx => hx.enterAddr 0
  · exact xferChk_scanOk (State.Sent.xfer hat b) fun _ hx => hx.enterAddr (j + 1)
  · exact hdata u hat hd
  · obtain ⟨hwren, o, ho⟩ := hat
    exact ⟨fun hu => by simp [hwren hu, Scan.next], o, by simp [ho, Scan.next]⟩
  · obtain ⟨hwren, o, ho⟩ := hat
    exact ⟨fun hu => by simp [hwren hu, Scan.next], o, by simp [ho, Scan.next]⟩
  · obtain ⟨hwren, o, ho⟩ := hat
    exact afterFrame_scanOk ⟨_, by simp [ho, Scan.next]; rfl⟩ fun hu => by simp [hwren hu, Scan.next, opWREN]
  · obtain ⟨-, o, ho⟩ := hat
    exact State.Quiet.goto ⟨_, by simp [ho, Scan.next]; rfl⟩ nofun

theorem wire_scanOk {i : Instr} {s t : State} (hs : i.space = .wire) (hok : s.scanOk) (h : exec i s = .next t) : t.scanOk := by
  cases i with
  | wireRead | wireReadA8 => exact frameStep_scanOk hok h fun _ => readData_scanOk
  | wireWrite | wireWriteA8 => exact frameStep_scanOk hok h fun _ => writeData_scanOk
  | wireRdsr => exact frameStep_scanOk hok h fun _ => statusData_scanOk
  | wireWren | wireWrdi => exact frameStep_scanOk hok h fun _ _ hd => absurd hd noData_not_next
  | wireWrsr => exact nomatch h
  | _ => exact nomatch hs

/-! ### Host commands -/

/-- Between two frames, an event that opens none. -/
theorem State.Quiet.emit {s : State} {e : WireEvent} (h : s.Quiet) (he : ∀ w, (Scan.quiet w).next e = .quiet false) :
    (s.emit e).Quiet := by
  obtain ⟨w, hw⟩ := h
  exact ⟨false, by rw [State.emit_trace, scan_append, hw, he]⟩

theorem State.Quiet.startWait {s : State} (h : s.Quiet) (r : WaitRet) : (s.startWait r).scanOk :=
  State.Quiet.goto_csLow (h.emit (e := .time s.nowValue) fun _ => rfl) nofun

theorem CheckStep.scanOk {s t : State} (h : CheckStep s t) (hq : s.Quiet) : t.scanOk := by
  cases h with
  | precondition | notInit | bufRange | returns => exact hq
  | waits r => exact hq.startWait r
  | segments c r => exact State.Quiet.startWait (s := (s.setCur c).setEnv _) hq r
  | opens u hu =>
    obtain ⟨w, hw⟩ := hq
    refine ⟨w, by simp [State.openFrame, hw, Scan.next], fun hwrite => ?_⟩
    simp [hwrite] at hu

theorem CmdStep.not_frame {i : Instr} {s t : State} (h : CmdStep i s t) (u : FrameUse) (pt : FramePoint) :
    s.phase ≠ .frame u pt := by
  cases h <;> simp [*]

theorem CmdStep.scanOk {i : Instr} {s t : State} (h : CmdStep i s t) (hok : s.scanOk) : t.scanOk := by
  have hq : s.Quiet := (scanOk_iff_quiet h.not_frame).1 hok
  cases h with
  | check _ hc => exact hc.scanOk hq
  | initPin => exact hq.emit (e := .cs true) fun _ => rfl
  | deinitPin => exact hq.emit (e := .csz) fun _ => rfl
  | waitT0 r => exact hq.startWait r
  | pollT r =>
    refine State.Quiet.goto (hq.emit (e := .time s.nowValue) fun _ => rfl) fun u pt => ?_
    split <;> exact nofun
  | pollY r => exact State.Quiet.goto_csLow (hq.emit (e := .yield) fun _ => rfl) nofun
  | initEnd | deinitEnd | complete | completeRdata | failing => exact hq

/-! ### The step -/

theorem exec_scanOk {i : Instr} {s t : State} (hok : s.scanOk) (h : exec i s = .next t) : t.scanOk := by
  cases hs : i.space with
  | host => exact (command_next hs h).scanOk hok
  | wire => exact wire_scanOk hs hok h

/-- A host access changes nothing that the protocol looks at. -/
theorem HostKeeps.scanOk {s t : State} (h : HostKeeps s t) (hok : s.scanOk) : t.scanOk :=
  hok.congr h.phase h.trace fun u => by cases u <;> simp [State.frameOp, State.frameTarget, State.cAddr, h.cfg, h.lat, h.cur]

theorem State.scanOk.setSched {s : State} (h : s.scanOk) (r : List Event) : (s.setSched r).scanOk :=
  h.congr rfl rfl fun u => by cases u <;> rfl

/-- After a reset the trace is empty. -/
theorem afterReset_scanOk (c : Config) (e : Env) : (State.afterReset c e).scanOk := ⟨false, rfl⟩

/-- Settles O53: only an instruction appends to the trace, and no one else moves the phase of a running command but a reset. -/
theorem wireProtocolIsKept : Obligations.WireProtocolIsKept := by
  refine ⟨afterReset_scanOk _ _, fun s t hok h => ?_⟩
  cases (step_next h).2 with
  | idle q hq =>
    obtain ⟨r, rfl⟩ := hq.eq_setSched
    exact hok.setSched r
  | run q i hq _ _ he =>
    obtain ⟨r, rfl⟩ := hq.eq_setSched
    exact exec_scanOk (hok.setSched r) he
  | start r op v i _ _ hp _ he =>
    have hq : s.Quiet := (scanOk_iff_quiet (by simp [hp])).1 hok
    exact exec_scanOk (s := (s.setSched r).start v) hq he
  | illegal r op v _ _ hp =>
    have hq : s.Quiet := (scanOk_iff_quiet (by simp [hp])).1 hok
    exact hq
  | busyCmd r | bus r => exact hok.congr rfl rfl fun u => by cases u <;> rfl
  | write r a lanes => exact (hostWrite_keeps a lanes (s.setSched r)).scanOk (hok.setSched r)
  | read r a n => exact (hostRead_keeps a n (s.setSched r)).scanOk (hok.setSched r)
  | readStatus r => exact (hostRead_keeps _ 4 (s.setSched r)).scanOk (hok.setSched r)
  | reset r => exact afterReset_scanOk _ _

end Sys2Proof.Machine
end

section
/-! PROOFS. The steps of a frame, point by point, for every opcode the sequencer sends (spec/30_encoding.md R126 to R134, spec/10_state.md
R53, spec/60_exceptions.md R306), and its data phases (spec/41_status.md R190, spec/42_read.md R221, R222, spec/43_write.md R240). -/

namespace Sys2Proof.Machine

/-! ### The instruction of a frame -/

/-- A frame's opcode runs that frame's step, with the data phase of the frame. -/
theorem exec_frameStep {i : Instr} {u : FrameUse} {pt : FramePoint} {s : State} (hi : i.space = .wire) (hop : s.frameOp u = encode i)
    (hp : s.phase = .frame u pt) : exec i s = frameStep (s.frameOp u) u.dataPhase s := by
  obtain ⟨j, hj, hexec⟩ := fetch_frameStep hp
  rw [fetch_frame hp, hop, decodeWire_of_space hi] at hj
  rwa [Option.some.inj hj]

/-- Of the opcodes sent, WREN and WRDI are those of the frames without a data phase (30_encoding.md R130). -/
theorem hasData_iff {i : Instr} {u : FrameUse} {s : State} (hi : i.space = .wire) (hop : s.frameOp u = encode i) :
    u.hasData = true ↔ i ∉ [Instr.wireWren, .wireWrdi] := by
  have hdec : decodeWire (s.frameOp u) = some i := by rw [hop, decodeWire_of_space hi]
  rw [State.frameOp] at hdec
  rcases wireOp_base s.cfg u.baseOp (s.frameTarget u) with h | ⟨h, hbase⟩ <;> rw [h] at hdec
  · cases u <;> (obtain rfl := Option.some.inj hdec; simp [FrameUse.hasData])
  · cases u with
    | read | compare | write => obtain rfl := Option.some.inj hdec; simp [FrameUse.hasData]
    | status | poll | wrenCmd | wrenSeq | wrdi => exact absurd hbase (by simp only [FrameUse.baseOp]; decide)

/-- The opcodes the sequencer sends. -/
abbrev sentInstrs : List Instr := [.wireRead, .wireReadA8, .wireWrite, .wireWriteA8, .wireRdsr, .wireWren, .wireWrdi]

theorem space_of_sent {i : Instr} (h : i ∈ sentInstrs) : i.space = .wire := by
  revert i
  decide

/-! ### The points of a frame (30_encoding.md R126) -/

section
variable {data : FrameUse → State → Res} {u : FrameUse} {s : State}

theorem frameStep_csLow (hp : s.phase = .frame u .csLow) : frameStep (s.frameOp u) data s = .next (s.openFrame u) := by
  simp only [frameStep, hp, if_true]

theorem frameStep_txnBegin (hp : s.phase = .frame u .txnBegin) (hfree : s.env.busFree = true) :
    frameStep (s.frameOp u) data s = .next (s.txnBegin.goto (.frame u .opcode)) := by
  simp only [frameStep, hp, hfree, if_true]

/-- A bus that is not granted holds the sequencer (10_state.md R53). -/
theorem frameStep_hold (hp : s.phase = .frame u .txnBegin) (hbusy : s.env.busFree = false) :
    frameStep (s.frameOp u) data s = .next s := by
  simp only [frameStep, hp, hbusy, if_true, Bool.false_eq_true, if_false]

theorem frameStep_opcode (hp : s.phase = .frame u .opcode) :
    frameStep (s.frameOp u) data s = .next (s.xferChk u (s.frameOp u) fun _ t => t.enterAddr u 0) := by
  simp only [frameStep, hp, if_true]

theorem frameStep_addr {m : Nat} {b : Byte} (hp : s.phase = .frame u (.addr m)) (hb : (s.frameAddr u)[m]? = some b) :
    frameStep (s.frameOp u) data s = .next (s.xferChk u b fun _ t => t.enterAddr u (m + 1)) := by
  simp only [frameStep, hp, hb, if_true]

theorem frameStep_data (hp : s.phase = .frame u .data) : frameStep (s.frameOp u) data s = data u s := by
  simp only [frameStep, hp, if_true]

theorem frameStep_csCut (hp : s.phase = .frame u (.csHigh true)) :
    frameStep (s.frameOp u) data s = .next ((s.csCut u).goto (.frame u (.txnEnd true))) := by
  simp only [frameStep, hp, if_true]

theorem frameStep_txnEnd (hp : s.phase = .frame u (.txnEnd false)) :
    frameStep (s.frameOp u) data s = .next (s.txnEnd.afterFrame u) := by
  simp only [frameStep, hp, if_true]

theorem frameStep_txnEndFailed (hp : s.phase = .frame u (.txnEnd true)) :
    frameStep (s.frameOp u) data s = .next (s.txnEnd.goto (.failing .bus)) := by
  simp only [frameStep, hp, if_true]

end

/-- Settles O35, point by point. -/
theorem framePointSteps : Obligations.FramePointSteps := by
  intro i u s hi hop
  have hstep {pt : FramePoint} (hp : s.phase = .frame u pt) := exec_frameStep (space_of_sent hi) hop hp
  refine ⟨fun hp => ?_, fun hp hfree => ?_, fun hp hbusy => ?_, fun hp => ?_, fun hp => ?_, fun hp => ?_, fun hp hu => ?_,
    fun hp hu => ?_⟩ <;> rw [hstep hp]
  · exact frameStep_csLow hp
  · exact frameStep_txnBegin hp hfree
  · exact frameStep_hold hp hbusy
  · exact frameStep_csHigh hp
  · exact frameStep_csCut hp
  · exact frameStep_txnEndFailed hp
  · rw [frameStep_txnEnd hp]
    simp only [List.mem_cons, List.not_mem_nil, or_false] at hu
    rcases hu with rfl | rfl | rfl | rfl <;> rfl
  · subst hu
    exact frameStep_txnEnd hp

/-! ### The opcode and the address bytes -/

section
variable {u : FrameUse} {tx : Byte} {k : Byte → State → State} {s : State}

theorem State.xferChk_ok (h : s.xferAnswer.ok = true) : s.xferChk u tx k = k s.xferAnswer.rx (s.xfer tx) := if_pos h

theorem State.xferChk_failed (h : s.xferAnswer.ok = false) :
    s.xferChk u tx k = (s.xfer tx).goto (.frame u (.csHigh true)) := if_neg (by simp [h])

theorem State.enterAddr_addr {j : Nat} (h : j < (s.frameAddr u).length) : s.enterAddr u j = s.goto (.frame u (.addr j)) :=
  if_pos h

/-- After the last address byte a data phase begins at index 0; that of a compare frame has found no mismatch yet. -/
theorem State.enterAddr_data {j : Nat} (h : (s.frameAddr u).length ≤ j) (hdata : u.hasData = true) :
    s.enterAddr u j =
      (s.setCur { s.cur with i := 0, k := if u = .compare then s.cur.segLen else s.cur.k }).goto (.frame u .data) := by
  unfold State.enterAddr
  rw [if_neg (by omega), if_pos hdata]
  cases u <;> rfl

theorem State.enterAddr_close {j : Nat} (h : (s.frameAddr u).length ≤ j) (hdata : u.hasData = false) :
    s.enterAddr u j = s.goto (.frame u (.csHigh false)) := by
  unfold State.enterAddr
  rw [if_neg (by omega), if_neg (by simp [hdata])]

end

/-- Settles O36: the opcode and every address byte go out in one way, and `enterAddr` says what comes next. -/
theorem opcodeAndAddressAreSent : Obligations.OpcodeAndAddressAreSent := by
  intro i u s hi hop j tx hpt
  have hspace := space_of_sent hi
  have hexec : exec i s = .next (s.xferChk u tx fun _ t => t.enterAddr u j) := by
    rcases hpt with ⟨hp, rfl, rfl⟩ | ⟨m, hp, hb, rfl⟩
    · rw [exec_frameStep hspace hop hp, frameStep_opcode hp, hop]
    · rw [exec_frameStep hspace hop hp, frameStep_addr hp hb]
  refine ⟨_, hexec, ?_⟩
  cases hok : s.xferAnswer.ok with
  | false =>
    rw [State.xferChk_failed hok]
    exact ⟨rfl, by simp [hok], rfl, fun _ => ⟨rfl, rfl⟩, nofun, nofun⟩
  | true =>
    rw [State.xferChk_ok hok]
    by_cases hj : j < (s.frameAddr u).length
    · rw [State.enterAddr_addr (by simpa using hj)]
      exact ⟨rfl, by simp [hok], rfl, nofun, fun _ _ => ⟨rfl, rfl⟩, fun _ hlast => absurd hj (by omega)⟩
    · have hlast : ((s.xfer tx).frameAddr u).length ≤ j := by simpa using hj
      cases hdata : u.hasData with
      | true =>
        rw [State.enterAddr_data hlast hdata]
        exact ⟨rfl, by simp [hok], rfl, nofun, fun _ h => absurd h hj, fun _ _ =>
          ⟨fun hin => absurd hin ((hasData_iff hspace hop).1 hdata), fun _ => ⟨rfl, rfl⟩⟩⟩
      | false =>
        rw [State.enterAddr_close hlast hdata]
        exact ⟨rfl, by simp [hok], rfl, nofun, fun _ h => absurd h hj, fun _ _ =>
          ⟨fun _ => ⟨rfl, rfl⟩, fun hout => by simp [(hasData_iff hspace hop).2 hout] at hdata⟩⟩

/-! ### The data phases -/

/-- Settles O37. -/
theorem statusByteIsKept : Obligations.StatusByteIsKept := by
  intro u s hu hp
  have hop : s.frameOp u = encode .wireRdsr := by
    rcases hu with rfl | ⟨r, rfl⟩ <;> exact wireOp_other s.cfg (op := opRDSR) 0 (by decide) (by decide)
  have hexec : exec .wireRdsr s = statusData u s := by
    rw [exec_frameStep rfl hop hp, frameStep_data hp]
    rcases hu with rfl | ⟨r, rfl⟩ <;> rfl
  rw [hexec, statusData]
  refine ⟨fun hok => ?_, fun hok => ?_⟩
  · rw [State.xferChk_ok hok, ← hok]
    rfl
  · rw [State.xferChk_failed hok, ← hok]
    rfl

theorem command_of_code {i : Instr} {s : State} (hcode : s.lat.code = encode i) (hi : i.space = .host) : s.command = some i := by
  rw [State.command, hcode, decodeHost_of_space hi]

/-- After a data byte of a frame that has `n`. -/
theorem State.nextData_of_len {u : FrameUse} {n : Nat} {s : State} (h : s.frameLen u = n) :
    s.nextData u = { s with
      cur := { s.cur with i := s.cur.i + 1 }, phase := .frame u (if s.cur.i + 1 < n then .data else .csHigh false) } := by
  subst h
  rfl

section
variable {s : State}

/-- A received byte of a read command that has a place. -/
theorem readData_read (h : s.hasPlace = true) :
    readData .read s = .next (s.xferChk .read s.cfg.dummyTx fun rx t => (t.keepByte rx).nextData .read) := if_pos h

theorem readData_failed (h : s.hasPlace = true) (hok : s.xferAnswer.ok = false) :
    readData .read s = .next { s with
      trace := s.trace ++ [.xfer s.cfg.dummyTx s.xferAnswer.rx s.xferAnswer.ok], env := s.env.afterXfer s.cfg.dummyTx
      phase := .frame .read (.csHigh true) } := by
  rw [readData_read h, State.xferChk_failed hok]
  rfl

/-- READ_BYTE keeps its byte in the cursor, and its frame has one (42_read.md R222). -/
theorem readData_byte (hcmd : isByteCommand s.command = true) (hok : s.xferAnswer.ok = true) :
    readData .read s = .next { s with
      trace := s.trace ++ [.xfer s.cfg.dummyTx s.xferAnswer.rx s.xferAnswer.ok], env := s.env.afterXfer s.cfg.dummyTx
      cur := { s.cur with d := s.xferAnswer.rx, i := s.cur.i + 1 }
      phase := .frame .read (if s.cur.i + 1 < 1 then .data else .csHigh false) } := by
  have hkeep : (s.xfer s.cfg.dummyTx).keepByte s.xferAnswer.rx =
      (s.xfer s.cfg.dummyTx).setCur { s.cur with d := s.xferAnswer.rx } := if_pos hcmd
  rw [readData_read (by simp [State.hasPlace, hcmd]), State.xferChk_ok hok, hkeep, State.nextData_of_len (n := 1)]
  · rfl
  · exact if_pos hcmd

/-- READ_BLOCK keeps its byte in BUF, and its frame has as many as it asked for (42_read.md R221). -/
theorem readData_block (hcmd : isByteCommand s.command = false) (hlt : s.cur.i < s.cfg.bufBytes) (hok : s.xferAnswer.ok = true) :
    readData .read s = .next { s with
      trace := s.trace ++ [.xfer s.cfg.dummyTx s.xferAnswer.rx s.xferAnswer.ok], env := s.env.afterXfer s.cfg.dummyTx
      cur := { s.cur with i := s.cur.i + 1 }, buf := s.buf.set s.cur.i s.xferAnswer.rx
      phase := .frame .read (if s.cur.i + 1 < s.cLen then .data else .csHigh false) } := by
  have hkeep : (s.xfer s.cfg.dummyTx).keepByte s.xferAnswer.rx = (s.xfer s.cfg.dummyTx).bufWrite s.cur.i s.xferAnswer.rx :=
    if_neg (by simp [hcmd])
  rw [readData_read (by simp [State.hasPlace, hlt]), State.xferChk_ok hok, hkeep,
    State.nextData_of_len (n := s.cLen)]
  · rfl
  · exact if_neg (by simp [hcmd])

end

/-- Settles O38: READ_BYTE and READ_BLOCK apart, after a failed transfer and after a good one. -/
theorem readDataIsKept : Obligations.ReadDataIsKept := by
  intro i s hi hop hp hcode
  have hspace : i.space = .wire := by rcases hi with rfl | rfl <;> rfl
  have hexec : exec i s = readData .read s := by
    rw [exec_frameStep hspace hop hp, frameStep_data hp]
    rfl
  have hepoch := (Env.afterXfer_keep s.cfg.dummyTx s.env).2.2
  rw [hexec]
  rcases hcode with hbyte | ⟨hblock, hlt⟩
  · have hcmd : isByteCommand s.command = true := by rw [command_of_code hbyte rfl]; rfl
    have hne : s.lat.code ≠ encode .readBlock := by rw [hbyte]; decide
    cases hok : s.xferAnswer.ok with
    | false =>
      exact ⟨_, readData_failed (by simp [State.hasPlace, hcmd]) hok, rfl, by rw [← hok], rfl, fun _ => ⟨rfl, rfl, rfl⟩,
        nofun, nofun⟩
    | true =>
      exact ⟨_, readData_byte hcmd hok, rfl, by rw [← hok], rfl, nofun, fun _ _ => ⟨rfl, rfl, rfl⟩, fun _ h => absurd h hne⟩
  · have hcmd : isByteCommand s.command = false := by rw [command_of_code hblock rfl]; rfl
    have hne : s.lat.code ≠ encode .readByte := by rw [hblock]; decide
    cases hok : s.xferAnswer.ok with
    | false =>
      exact ⟨_, readData_failed (by simp [State.hasPlace, hlt]) hok, rfl, by rw [← hok], rfl, fun _ => ⟨rfl, rfl, rfl⟩,
        nofun, nofun⟩
    | true =>
      refine ⟨_, readData_block hcmd hlt hok, rfl, by rw [← hok], rfl, nofun, fun _ h => absurd h hne,
        fun _ _ => ⟨rfl, ?_, fun a ha => ?_, rfl⟩⟩
      · simp [State.bufByte]
      · simp [State.bufByte, Memory.get?_set_ne _ _ ha, hepoch]

/-- The source byte of a byte command is its latched data byte. -/
theorem srcByte_byte {s : State} (h : isByteCommand s.command = true) (j : Nat) : s.srcByte j = some s.lat.data := if_pos h

/-- The source byte of any other command is a byte of BUF. -/
theorem srcByte_buf {s : State} {j : Nat} (h : isByteCommand s.command = false) (hj : s.cur.off + j < s.cfg.bufBytes) :
    s.srcByte j = some (s.bufByte (s.cur.off + j)) := by
  rw [State.srcByte, if_neg (by simp [h]), if_pos hj]

/-- Settles O40. -/
theorem writeDataIsSent : Obligations.WriteDataIsSent := by
  intro i s b hi hop hp hsrc
  have hspace : i.space = .wire := by rcases hi with rfl | rfl <;> rfl
  have hbyte : s.srcByte (s.cur.k + s.cur.i) = some b := by
    rcases hsrc with ⟨hcode, rfl⟩ | ⟨hcode, hlt, rfl⟩
    · refine srcByte_byte ?_ _
      simp only [List.mem_cons, List.not_mem_nil, or_false] at hcode
      rcases hcode with hcode | hcode <;> rw [command_of_code hcode rfl] <;> rfl
    · refine srcByte_buf ?_ hlt
      simp only [List.mem_cons, List.not_mem_nil, or_false] at hcode
      rcases hcode with hcode | hcode | hcode | hcode <;> rw [command_of_code hcode rfl] <;> rfl
  have hexec : exec i s = .next (s.xferChk .write b fun _ t => t.nextData .write) := by
    rw [exec_frameStep hspace hop hp, frameStep_data hp]
    simp only [FrameUse.dataPhase, writeData, hbyte]
  rw [hexec]
  refine ⟨fun hok => ?_, fun hok => ?_⟩
  · rw [State.xferChk_ok hok, ← hok]
    rfl
  · rw [State.xferChk_failed hok, ← hok]
    rfl

end Sys2Proof.Machine
end

section
/-! PROOFS. The whole run of a one-byte frame (spec/30_encoding.md R130, spec/41_status.md R193, R194): steps where no other agent
moves, a transfer that succeeds, the frame, and the command around it. -/

namespace Sys2Proof.Machine

/-! ### The sequencer alone -/

theorem runSteps_succ {n : Nat} {s t : State} (h : step s = .next t) : runSteps (n + 1) s = runSteps n t := by
  simp only [runSteps, h]

section
variable {s : State} (hv : s.cfg.valid = true) (hs : s.env.sched = [])
include hv hs

theorem step_alone : step s = seqStep s := by simp only [step, hv, hs, if_true]

theorem step_frame {u : FrameUse} {pt : FramePoint} (hp : s.phase = .frame u pt) :
    step s = frameStep (s.frameOp u) u.dataPhase s := by
  obtain ⟨j, hj, hexec⟩ := fetch_frameStep hp
  rw [step_alone hv hs, seqStep_run (by simp [hp]) hj, hexec]

theorem step_command {i : Instr} (hp : s.phase ≠ .idle) (hframe : ∀ u pt, s.phase ≠ .frame u pt)
    (hi : hostInstr s.cfg s.lat.code = some i) : step s = exec i s := by
  rw [step_alone hv hs, seqStep_run hp (by rw [fetch_command hp hframe, hi])]

end

theorem setWidth_encode {i : Instr} : ((encode i).setWidth 32).setWidth 8 = encode i := by simp

/-- A transfer of `tx` that is answered by `p`; the answers `rest` are left. -/
def State.answered (tx p : Byte) (rest : List Answer) (s : State) : State :=
  ({ s with env := { s.env with answers := rest } }).emit (.xfer tx p true)

/-- A transfer that a transport without a responder answers well. -/
theorem xferChk_good {u : FrameUse} {tx p : Byte} {rest : List Answer} {k : Byte → State → State} {s : State}
    (hchip : s.env.chip = none) (hans : s.env.answers = ⟨p, true⟩ :: rest) :
    s.xferChk u tx k = k p (s.answered tx p rest) := by
  obtain ⟨hanswer, henv⟩ := State.xferAnswer_ready hchip hans
  rw [State.xferChk_ok (by rw [hanswer]; rfl)]
  simp only [State.xfer, State.setEnv, State.answered, hanswer, henv, Bool.true_or]

/-! ### A frame of one byte -/

/-- A frame without a data phase has no address (30_encoding.md R130). -/
theorem frameAddr_nil {u : FrameUse} (s : State) (h : u.hasData = false) : s.frameAddr u = [] := by
  cases u with
  | wrenCmd | wrenSeq | wrdi => rfl
  | status | poll | read | compare | write => exact nomatch h

section
variable {u : FrameUse} {s : State} (hv : s.cfg.valid = true) (hs : s.env.sched = [])
include hv hs

theorem step_txnBegin (hfree : s.env.busFree = true) (hp : s.phase = .frame u .txnBegin) :
    step s = .next (s.txnBegin.goto (.frame u .opcode)) := by
  rw [step_frame hv hs hp, frameStep_txnBegin hp hfree]

/-- The opcode of a frame without a data phase is its only byte. -/
theorem step_onlyByte {p : Byte} {rest : List Answer} (hchip : s.env.chip = none) (hans : s.env.answers = ⟨p, true⟩ :: rest)
    (hdata : u.hasData = false) (hp : s.phase = .frame u .opcode) :
    step s = .next ((s.answered (s.frameOp u) p rest).goto (.frame u (.csHigh false))) := by
  rw [step_frame hv hs hp, frameStep_opcode hp, xferChk_good hchip hans,
    State.enterAddr_close (by rw [frameAddr_nil _ hdata]; exact Nat.le_refl 0) hdata]

theorem step_csHigh (hp : s.phase = .frame u (.csHigh false)) : step s = .next (s.csHigh.goto (.frame u (.txnEnd false))) := by
  rw [step_frame hv hs hp, frameStep_csHigh hp]

theorem step_txnEnd (hp : s.phase = .frame u (.txnEnd false)) : step s = .next (s.txnEnd.afterFrame u) := by
  rw [step_frame hv hs hp, frameStep_txnEnd hp]

/-- From BEGIN to right before END, on a bus that is granted and with a transfer that succeeds. -/
theorem run_oneByteFrame {p : Byte} {rest : List Answer} (hfree : s.env.busFree = true) (hchip : s.env.chip = none)
    (hans : s.env.answers = ⟨p, true⟩ :: rest) (hdata : u.hasData = false) (hp : s.phase = .frame u .txnBegin) (n : Nat) :
    runSteps (n + 3) s =
      runSteps n ((s.txnBegin.answered (s.frameOp u) p rest).csHigh.goto (.frame u (.txnEnd false))) := by
  have hbyte := step_onlyByte (s := s.txnBegin.goto (.frame u .opcode)) hv hs hchip hans hdata rfl
  have hclose := step_csHigh (s := (s.txnBegin.answered (s.frameOp u) p rest).goto (.frame u (.csHigh false))) hv hs rfl
  rw [State.goto_frameOp, State.txnBegin_frameOp] at hbyte
  rw [runSteps_succ (step_txnBegin hv hs hfree hp), runSteps_succ hbyte]
  exact runSteps_succ hclose

end

/-! ### WRITE_ENABLE and WRITE_DISABLE -/

/-- The frame of each latch command (41_status.md R193, R194). -/
inductive LatchFrame : Instr → FrameUse → Prop
  | enable : LatchFrame .writeEnable .wrenCmd
  | disable : LatchFrame .writeDisable .wrdi

section
variable {i : Instr} {u : FrameUse} (h : LatchFrame i u)
include h

theorem LatchFrame.exec_check {s : State} (hp : s.phase = .check) (hinit : s.initDone = true) :
    exec i s = .next (s.openFrame u) := by
  cases h <;> simp only [exec, execWriteEnable, execWriteDisable, runFrames, hp, State.requireInit, hinit, if_true]

theorem LatchFrame.exec_complete {s : State} (hp : s.phase = .complete) : exec i s = .next (s.succeed 1) := by
  cases h <;> simp only [exec, execWriteEnable, execWriteDisable, runFrames, hp]

theorem LatchFrame.afterFrame (s : State) : s.afterFrame u = s.goto .complete := by cases h <;> rfl

theorem LatchFrame.frameOp (s : State) : s.frameOp u = u.baseOp := by
  cases h <;> exact wireOp_other s.cfg 0 (by decide) (by decide)

theorem LatchFrame.hostInstr (c : Config) : hostInstr c (encode i) = some i := by cases h <;> rfl

theorem LatchFrame.noData : u.hasData = false := by cases h <;> rfl

/-- From the CMD write to the open frame. -/
theorem LatchFrame.step_start {s : State} (hv : s.cfg.valid = true) (hp : s.phase = .idle) (hinit : s.initDone = true)
    (hs : s.env.sched = [.host (.write s.cfg.hostBase (lanesOf ((encode i).setWidth 32)))]) :
    step s = .next (((s.setSched []).start ((encode i).setWidth 32)).openFrame u) := by
  have hinstr : Machine.hostInstr s.cfg (((encode i).setWidth 32).setWidth 8) = some i := by
    rw [setWidth_encode, h.hostInstr]
  rw [step_cmd hv hs, cmdStep_start (s := s.setSched []) hp hinstr]
  exact h.exec_check rfl hinit

/-- From END to idle: END, the completion, and an idle step. -/
theorem LatchFrame.run_end {s : State} (hv : s.cfg.valid = true) (hs : s.env.sched = []) (hcode : s.lat.code = encode i)
    (hp : s.phase = .frame u (.txnEnd false)) : runSteps 3 s = .next (s.txnEnd.succeed 1) := by
  have hend : step s = .next (s.txnEnd.goto .complete) := by rw [step_txnEnd hv hs hp, h.afterFrame]
  have hreturn : step (s.txnEnd.goto .complete) = .next (s.txnEnd.succeed 1) := by
    rw [step_command (i := i) (s := s.txnEnd.goto .complete) hv hs nofun nofun (by simp [hcode, h.hostInstr]),
      h.exec_complete rfl]
    rfl
  have hidle : step (s.txnEnd.succeed 1) = .next (s.txnEnd.succeed 1) := by
    rw [step_alone (s := s.txnEnd.succeed 1) hv hs, seqStep_idle rfl]
  rw [runSteps_succ hend, runSteps_succ hreturn, runSteps_succ hidle]
  rfl

end

/-- Settles O28: the CMD write, the frame from BEGIN to CS(1), and its END with the completion. -/
theorem latchCommandRun : Obligations.LatchCommandRun := by
  intro i op s p rest hi hv hp hinit hfree hchip hs hans
  obtain ⟨u, h, hop⟩ : ∃ u, LatchFrame i u ∧ u.baseOp = op := by
    rcases hi with ⟨rfl, rfl⟩ | ⟨rfl, rfl⟩
    · exact ⟨_, .enable, rfl⟩
    · exact ⟨_, .disable, rfl⟩
  have hframe := run_oneByteFrame (s := ((s.setSched []).start ((encode i).setWidth 32)).openFrame u) hv rfl hfree
    (by simp [State.openFrame, hchip]) hans h.noData rfl 3
  refine ⟨_, (runSteps_succ (h.step_start hv hp hinit hs)).trans (hframe.trans (h.run_end ?_ ?_ ?_ rfl)), ?_⟩
  · simpa [State.answered, State.openFrame] using hv
  · simp [State.answered, State.openFrame]
  · simp [State.answered, State.openFrame, State.start]
  · simp [State.answered, State.openFrame, State.succeed, h.frameOp, hop, frameEvents]

end Sys2Proof.Machine
end

section
/-! PROOFS. The control commands (spec/40_control.md R170 to R174): the one step of a command that ends at once, the two of a command
with a pin step, and the profile's two sizes in RESULT. -/

namespace Sys2Proof.Machine

section
variable {body done : State → State} {s : State}

theorem runAtOnce_of_check (hp : s.phase = .check) : runAtOnce body s = .next (body s) := by
  simp only [runAtOnce, hp]

theorem runPin_of_check (hp : s.phase = .check) : runPin body done s = .next (body s) := by
  simp only [runPin, hp]

theorem runPin_of_pin (hp : s.phase = .pin) : runPin body done s = .next (done s) := by
  simp only [runPin, hp]

end

/-- Settles O22: the pin step and the completion, each the body the command gives it. -/
theorem initTakesClockAndPin : Obligations.InitTakesClockAndPin := by
  constructor
  · intro s hp
    rw [exec, execInit, runPin_of_check hp]
    rfl
  · intro s hp
    rw [exec, execInit, runPin_of_pin hp]
    rfl

/-- Settles O23: the pin step and the completion, neither with a look at `initDone`. -/
theorem deinitReleasesPin : Obligations.DeinitReleasesPin := by
  constructor
  · intro s hp
    rw [exec, execDeinit, runPin_of_check hp]
    rfl
  · intro s hp
    rw [exec, execDeinit, runPin_of_pin hp]
    rfl

/-- The bounds of a valid profile (00_scope.md R9). -/
theorem valid_sizes {c : Config} (h : c.valid = true) : c.cap ≤ 2 ^ 24 ∧ c.page ≤ c.cap := by
  simp only [Config.valid, decide_eq_true_eq] at h
  obtain ⟨-, hcap, -, hpage, -⟩ := h
  exact ⟨hcap, hpage⟩

/-- Settles O24: one step for both commands, and the sizes of a valid profile are below 2 ^ 32. -/
theorem capacityAndPageSize : Obligations.CapacityAndPageSize := by
  intro s hp
  refine ⟨?_, ?_, fun hv => ?_⟩
  · rw [exec, execGetCapacity, runAtOnce_of_check hp]
    rfl
  · rw [exec, execGetPageSize, runAtOnce_of_check hp]
    rfl
  · obtain ⟨hcap, hpage⟩ := valid_sizes hv
    simp only [BitVec.toNat_ofNat]
    omega

end Sys2Proof.Machine
end

section
/-! PROOFS. The status commands and WaitForReady (spec/41_status.md R190 to R200, spec/60_exceptions.md R307): the RDSR frame they
share, each command at its program points, and the runs of a status command and of a wait that ends in TIMEOUT. -/

namespace Sys2Proof.Machine

/-! ### The program points of a command with frames (41_status.md R191 to R194) -/

section
variable {body done : State → State} {s : State}

theorem runFrames_of_check (hp : s.phase = .check) : runFrames body done s = .next (body s) := by
  simp only [runFrames, hp]

theorem runFrames_of_complete (hp : s.phase = .complete) : runFrames body done s = .next (done s) := by
  simp only [runFrames, hp]

end

theorem State.requireInit_done {k : State → State} {s : State} (h : s.initDone = true) : s.requireInit k = k s := if_pos h

/-- The status commands, each with its one frame. -/
abbrev statusFrames : List (Instr × FrameUse) :=
  [(.readStatus, .status), (.isReady, .status), (.writeEnable, .wrenCmd), (.writeDisable, .wrdi)]

theorem exec_opens {i : Instr} {u : FrameUse} {s : State} (hi : (i, u) ∈ statusFrames) (hp : s.phase = .check)
    (hinit : s.initDone = true) : exec i s = .next (s.openFrame u) := by
  simp only [List.mem_cons, Prod.mk.injEq, List.not_mem_nil, or_false] at hi
  rcases hi with ⟨rfl, rfl⟩ | ⟨rfl, rfl⟩ | ⟨rfl, rfl⟩ | ⟨rfl, rfl⟩
  · rw [exec, execReadStatus, runFrames_of_check hp, State.requireInit_done hinit]
  · rw [exec, execIsReady, runFrames_of_check hp, State.requireInit_done hinit]
  · exact LatchFrame.enable.exec_check hp hinit
  · exact LatchFrame.disable.exec_check hp hinit

/-- Settles O25: the checks pass, and what is left is CS(0). -/
theorem statusCommandsOpenTheirFrame : Obligations.StatusCommandsOpenTheirFrame := fun _ _ _ hi hp hinit =>
  exec_opens hi hp hinit

/-- RESULT of a command that reads the status byte (41_status.md R191, R192). -/
def statusResult (i : Instr) (sr : Byte) : Word := if i = .readStatus then 1 else if sr.getLsbD 0 then 0 else 1

theorem exec_reportsStatus {i : Instr} {s : State} (hi : i = .readStatus ∨ i = .isReady) (hp : s.phase = .complete) :
    exec i s = .next ((s.setRdata s.cur.sr).succeed (statusResult i s.cur.sr)) := by
  rcases hi with rfl | rfl
  · rw [exec, execReadStatus, runFrames_of_complete hp]
    rfl
  · rw [exec, execIsReady, runFrames_of_complete hp]
    cases hbit : s.cur.sr.getLsbD 0 <;> simp only [chipReady, statusResult, hbit] <;> rfl

/-- Settles O26. -/
theorem statusCommandsComplete : Obligations.StatusCommandsComplete := fun _ hp =>
  ⟨exec_reportsStatus (.inl rfl) hp, exec_reportsStatus (.inr rfl) hp, LatchFrame.enable.exec_complete hp,
    LatchFrame.disable.exec_complete hp⟩

/-! ### The program points of a wait (41_status.md R196) -/

section
variable {i : Instr} {r w : WaitRet} {s : State} (hi : waitsFor i w = true)
include hi

theorem exec_waitT0 (hp : s.phase = .waitT0 r) : exec i s = .next (s.startWait r) := by
  obtain ⟨body, done, h⟩ := exec_waiting hi
  simp only [h, runWaiting, hp]

theorem exec_pollT (hp : s.phase = .pollT r) : exec i s = .next (s.pollTime r) := by
  obtain ⟨body, done, h⟩ := exec_waiting hi
  simp only [h, runWaiting, hp]

theorem exec_pollY (hp : s.phase = .pollY r) : exec i s = .next (s.pollYield r) := by
  obtain ⟨body, done, h⟩ := exec_waiting hi
  simp only [h, runWaiting, hp]

theorem exec_failing {c : ErrCode} (hp : s.phase = .failing c) : exec i s = .next (s.raiseErr c) := by
  obtain ⟨body, done, h⟩ := exec_waiting hi
  simp only [h, runWaiting, hp]

end

/-- The modular elapsed time (41_status.md R196). -/
theorem toNat_elapsed (t t0 : Word) : (t - t0).toNat = (t.toNat + 2 ^ 32 - t0.toNat) % 2 ^ 32 := by
  rw [BitVec.toNat_sub]
  congr 1
  omega

/-- The commands of 42_read.md, 43_write.md and 44_update.md, which wait. -/
abbrev waitingInstrs : List Instr :=
  [.readByte, .readBlock, .writeByte, .writeBlock, .writePage, .updateByte, .updateBlock, .updatePage]

theorem waits_of_mem {i : Instr} (h : i ∈ waitingInstrs) : waitsFor i .read = true ∨ waitsFor i .write = true := by
  revert i
  decide

/-- Settles O29: of each command that waits, the three points are those of `runWaiting`. -/
theorem pollerSteps : Obligations.PollerSteps := by
  intro i r s hi
  obtain ⟨w, hw⟩ : ∃ w, waitsFor i w = true := (waits_of_mem hi).elim (⟨_, ·⟩) (⟨_, ·⟩)
  refine ⟨exec_waitT0 hw, fun hp => ?_, exec_pollY hw⟩
  rw [exec_pollT hw hp, State.pollTime, toNat_elapsed]
  rfl

theorem State.afterPoll_busy {s : State} (r : WaitRet) (h : s.cur.sr.getLsbD 0 = true) : s.afterPoll r = s.goto (.pollT r) := by
  simp only [State.afterPoll, chipReady, h, Bool.not_true, Bool.false_eq_true, if_false]

theorem State.afterPoll_ready {s : State} (r : WaitRet) (h : s.cur.sr.getLsbD 0 = false) :
    s.afterPoll r = s.goto (.frame r.use .csLow) := by
  simp only [State.afterPoll, chipReady, h, Bool.not_false, if_true]

/-- Settles O31: END, and the answer's bit 0 decides. -/
theorem pollAnswerDecides : Obligations.PollAnswerDecides := by
  intro r s hp
  have hop : s.frameOp (.poll r) = encode .wireRdsr := wireOp_other s.cfg (op := opRDSR) 0 (by decide) (by decide)
  rw [exec_frameStep rfl hop hp, frameStep_txnEnd hp, State.afterFrame]
  cases hbit : s.cur.sr.getLsbD 0 with
  | true =>
    rw [State.afterPoll_busy (s := s.txnEnd) r hbit]
    rfl
  | false =>
    rw [State.afterPoll_ready (s := s.txnEnd) r hbit]
    cases r <;> rfl

/-! ### A whole RDSR frame (30_encoding.md R129, 41_status.md R190) -/

/-- After a transfer that succeeds, the opcode's frame goes on with its address or its data. -/
theorem step_opcode {u : FrameUse} {p : Byte} {rest : List Answer} {s : State} (hv : s.cfg.valid = true) (hs : s.env.sched = [])
    (hchip : s.env.chip = none) (hans : s.env.answers = ⟨p, true⟩ :: rest) (hp : s.phase = .frame u .opcode) :
    step s = .next ((s.answered (s.frameOp u) p rest).enterAddr u 0) := by
  rw [step_frame hv hs hp, frameStep_opcode hp, xferChk_good hchip hans]

theorem State.afterFrame_goto (u : FrameUse) (p : Phase) (s : State) : (s.goto p).afterFrame u = s.afterFrame u := by
  cases u <;> rfl

theorem run_frameEnd {u : FrameUse} {s : State} (hv : s.cfg.valid = true) (hs : s.env.sched = [])
    (hp : s.phase = .frame u (.csHigh false)) (n : Nat) : runSteps (n + 2) s = runSteps n (s.csHigh.txnEnd.afterFrame u) := by
  have hend := step_txnEnd (s := s.csHigh.goto (.frame u (.txnEnd false))) hv hs rfl
  rw [runSteps_succ (step_csHigh hv hs hp), runSteps_succ hend]
  exact congrArg (runSteps n) (State.afterFrame_goto u (.frame u (.txnEnd false)) s.csHigh.txnEnd)

/-- Right after the opcode of an RDSR frame, answered by `p`. -/
def State.rdsrSent (u : FrameUse) (p : Byte) (rest : List Answer) (s : State) : State :=
  { s with
    trace := s.trace ++ [.xfer opRDSR p true]
    cur := { s.cur with i := 0 }
    env := { s.env with answers := rest }
    phase := .frame u .data }

/-- Right after the receive byte of an RDSR frame, the status byte `sr`. -/
def State.rdsrHeard (u : FrameUse) (sr : Byte) (rest : List Answer) (s : State) : State :=
  { s with
    trace := s.trace ++ [.xfer s.cfg.dummyTx sr true]
    cur := { s.cur with sr := sr }
    env := { s.env with answers := rest }
    phase := .frame u (.csHigh false) }

/-- After the END of an RDSR frame whose two bytes are answered by `p` and the status byte `sr`, but for the phase. -/
def State.statusRead (p sr : Byte) (rest : List Answer) (s : State) : State :=
  { s with
    cs := .high
    trace := s.trace ++ frameEvents s.clockHz (frameBytes s.cfg .rdsr) [p, sr]
    cur := { s.cur with i := 0, sr := sr }
    env := { s.env with answers := rest } }

@[simp] theorem State.statusRead_waitStart (p sr : Byte) (rest : List Answer) (s : State) :
    (s.statusRead p sr rest).cur.waitStart = s.cur.waitStart := rfl

section
variable {u : FrameUse} (hu : u.baseOp = opRDSR)
include hu

theorem frameOp_rdsr (s : State) : s.frameOp u = opRDSR := by
  rw [State.frameOp, hu]
  exact wireOp_other s.cfg _ (by decide) (by decide)

theorem enterAddr_rdsr (s : State) : s.enterAddr u 0 = (s.setCur { s.cur with i := 0 }).goto (.frame u .data) := by
  cases u with
  | status | poll => rfl
  | wrenCmd | wrenSeq | wrdi | read | compare | write => exact absurd hu (by decide)

theorem dataPhase_rdsr : u.dataPhase = statusData := by
  cases u with
  | status | poll => rfl
  | wrenCmd | wrenSeq | wrdi | read | compare | write => exact absurd hu (by decide)

section
variable {p sr : Byte} {rest : List Answer} {s : State} (hv : s.cfg.valid = true) (hs : s.env.sched = [])
  (hchip : s.env.chip = none)
include hv hs hchip

theorem step_rdsrOpcode (hans : s.env.answers = ⟨p, true⟩ :: rest) (hp : s.phase = .frame u .opcode) :
    step s = .next (s.rdsrSent u p rest) := by
  rw [step_opcode hv hs hchip hans hp, frameOp_rdsr hu, enterAddr_rdsr hu]
  rfl

theorem step_statusByte (hans : s.env.answers = ⟨sr, true⟩ :: rest) (hp : s.phase = .frame u .data) :
    step s = .next (s.rdsrHeard u sr rest) := by
  rw [step_frame hv hs hp, frameStep_data hp, dataPhase_rdsr hu, statusData, xferChk_good hchip hans]
  rfl

/-- The two bytes of the frame and its end, from right before the opcode. -/
theorem run_statusBytes (hans : s.env.answers = goodAnswers [p, sr] ++ rest) (hp : s.phase = .frame u .opcode) (n : Nat) :
    runSteps (n + 4) s =
      runSteps n (((s.rdsrSent u p (⟨sr, true⟩ :: rest)).rdsrHeard u sr rest).csHigh.txnEnd.afterFrame u) := by
  have hbyte := step_statusByte hu (s := s.rdsrSent u p (⟨sr, true⟩ :: rest)) hv hs hchip rfl rfl
  have hend := run_frameEnd (s := (s.rdsrSent u p (⟨sr, true⟩ :: rest)).rdsrHeard u sr rest) hv hs rfl n
  exact (runSteps_succ (step_rdsrOpcode hu hv hs hchip hans hp)).trans ((runSteps_succ hbyte).trans hend)

/-- From the open frame through END, on a bus that is granted and with transfers that succeed. -/
theorem run_statusFrame (hfree : s.env.busFree = true) (hans : s.env.answers = goodAnswers [p, sr] ++ rest) (n : Nat) :
    runSteps (n + 5) (s.openFrame u) = runSteps n ((s.statusRead p sr rest).afterFrame u) := by
  have hbytes := run_statusBytes hu (s := (s.openFrame u).txnBegin.goto (.frame u .opcode)) hv hs
    (by simp [State.openFrame, hchip]) hans rfl n
  rw [runSteps_succ (step_txnBegin (s := s.openFrame u) hv hs hfree rfl), hbytes,
    ← State.afterFrame_goto u (.frame u (.csHigh false)) (s.statusRead p sr rest)]
  simp [State.rdsrSent, State.rdsrHeard, State.statusRead, State.openFrame, State.goto, State.txnEnd, State.csHigh, State.csLow,
    State.txnBegin, State.emit, hchip, frameEvents, frameBytes]

end

end

/-! ### The run of READ_STATUS and IS_READY -/

theorem hostInstr_status {i : Instr} {u : FrameUse} (c : Config) (hi : (i, u) ∈ statusFrames) :
    hostInstr c (encode i) = some i := by
  simp only [List.mem_cons, Prod.mk.injEq, List.not_mem_nil, or_false] at hi
  rcases hi with ⟨rfl, -⟩ | ⟨rfl, -⟩ | ⟨rfl, -⟩ | ⟨rfl, -⟩ <;> rfl

/-- From the CMD write to the open frame. -/
theorem step_opens {i : Instr} {u : FrameUse} {s : State} (hi : (i, u) ∈ statusFrames) (hv : s.cfg.valid = true)
    (hp : s.phase = .idle) (hinit : s.initDone = true)
    (hs : s.env.sched = [.host (.write s.cfg.hostBase (lanesOf ((encode i).setWidth 32)))]) :
    step s = .next (((s.setSched []).start ((encode i).setWidth 32)).openFrame u) := by
  have hinstr : hostInstr s.cfg (((encode i).setWidth 32).setWidth 8) = some i := by
    rw [setWidth_encode, hostInstr_status s.cfg hi]
  rw [step_cmd hv hs, cmdStep_start (s := s.setSched []) hp hinstr]
  exact exec_opens hi rfl hinit

section
variable {s : State} (hv : s.cfg.valid = true) (hs : s.env.sched = [])
include hv hs

theorem run_idle (hp : s.phase = .idle) (n : Nat) : runSteps n s = .next s := by
  induction n with
  | zero => rfl
  | succ n ih => rw [runSteps_succ (by rw [step_alone hv hs, seqStep_idle hp]), ih]

/-- From the completion to idle, where the block stays. -/
theorem run_reportsStatus {i : Instr} (hi : i = .readStatus ∨ i = .isReady) (hcode : s.lat.code = encode i)
    (hp : s.phase = .complete) (n : Nat) :
    runSteps (n + 1) s = .next ((s.setRdata s.cur.sr).succeed (statusResult i s.cur.sr)) := by
  have hinstr : hostInstr s.cfg s.lat.code = some i := by
    rw [hcode]
    exact hostInstr_status (u := .status) s.cfg (by rcases hi with rfl | rfl <;> simp)
  have hstep := step_command hv hs (by simp [hp]) (by simp [hp]) hinstr
  rw [runSteps_succ (hstep.trans (exec_reportsStatus hi hp))]
  exact run_idle (s := (s.setRdata s.cur.sr).succeed _) hv hs rfl n

end

/-- Settles O27: the CMD write, the RDSR frame, and the completion. -/
theorem statusReadRun : Obligations.StatusReadRun := by
  intro i s p sr rest hi hv hp hinit hfree hchip hs hans
  have hmem : (i, FrameUse.status) ∈ statusFrames := by rcases hi with rfl | rfl <;> simp
  have hframe := run_statusFrame (u := .status) rfl
    (s := (s.setSched []).start ((encode i).setWidth 32)) hv rfl hchip hfree hans 2
  have hreport := run_reportsStatus
    (s := (((s.setSched []).start ((encode i).setWidth 32)).statusRead p sr rest).goto .complete) hv rfl hi setWidth_encode
    rfl 1
  exact ⟨_, (runSteps_succ (step_opens hmem hv hp hinit hs)).trans (hframe.trans hreport), rfl, rfl, rfl, rfl, rfl, rfl, rfl,
    hinit, rfl⟩

/-! ### A run that is still running (10_state.md R37, R38) -/

theorem exec_sched {i : Instr} {s t : State} (h : exec i s = .next t) : t.env.sched = s.env.sched := by
  cases hs : i.space with
  | wire => exact (wire_next hs h).1.sched
  | host => exact (command_next hs h).keeps.agents.1

/-- A step of the sequencer alone leaves the registers be while the command runs on. -/
theorem step_running {s t : State} (hs : s.env.sched = []) (hp : s.phase ≠ .idle) (h : step s = .next t) :
    t.cfg = s.cfg ∧ t.env.sched = [] ∧ (t.phase ≠ .idle → t.regs = s.regs) := by
  rw [step_alone (step_next h).1 hs] at h
  rcases seqStep_next h with ⟨hidle, -⟩ | ⟨-, i, -, hexec⟩
  · exact absurd hidle hp
  · exact ⟨(exec_next hexec).cfg, (exec_sched hexec).trans hs, (exec_next hexec).running⟩

section
variable {n : Nat} {s u : State} (hv : s.cfg.valid = true) (hs : s.env.sched = []) (h : runSteps n s = .next u)
  (hu : u.phase ≠ .idle)
include hv hs h hu

/-- A run that ends in a running command begins in one, since an idle block stays idle. -/
theorem not_idle_of_run : s.phase ≠ .idle := fun hidle => by
  rw [run_idle hv hs hidle] at h
  exact hu (Host.Outcome.next.inj h ▸ hidle)

/-- A command that still runs after `n` steps has run, with its registers held, after every fewer. -/
theorem running_before {k : Nat} {t : State} (hk : k ≤ n) (ht : runSteps k s = .next t) :
    t.phase ≠ .idle ∧ t.regs = s.regs := by
  induction k generalizing n s with
  | zero =>
    obtain rfl := Host.Outcome.next.inj ht
    exact ⟨not_idle_of_run hv hs h hu, rfl⟩
  | succ k ih =>
    obtain ⟨n, rfl⟩ : ∃ m, n = m + 1 := ⟨n - 1, by omega⟩
    cases hstep : step s with
    | fault c => simp [runSteps, hstep] at h
    | refused c => simp [runSteps, hstep] at h
    | next q =>
      obtain ⟨hcfg, hsched, hregs⟩ := step_running hs (not_idle_of_run hv hs h hu) hstep
      rw [runSteps_succ hstep] at h ht
      obtain ⟨hrun, hheld⟩ := ih (hcfg ▸ hv) hsched h (by omega) ht
      exact ⟨hrun, hheld.trans (hregs (not_idle_of_run (hcfg ▸ hv) hsched h hu))⟩

end

/-! ### A wait on a busy chip (41_status.md R196 to R198) -/

/-- A command `i` in its wait `r`, over a transport that grants the bus, without a responder, and with no other agent about to
move. -/
structure LoneWait (i : Instr) (r : WaitRet) (s : State) : Prop where
  valid : s.cfg.valid = true
  instr : hostInstr s.cfg s.lat.code = some i
  waits : waitsFor i r = true
  sched : s.env.sched = []
  free : s.env.busFree = true
  chip : s.env.chip = none

/-- A reading `t` of the time source; the readings `ts` are left. -/
def State.timed (t : Word) (ts : List Word) (s : State) : State := ({ s with env := { s.env with times := ts } }).emit (.time t)

theorem now_ready {s : State} {t : Word} {ts : List Word} (h : s.env.times = t :: ts) :
    s.nowValue = t ∧ s.now = s.timed t ts := by
  simp [State.nowValue, State.now, State.timed, State.setEnv, Env.afterNow, h]

theorem elapsed_of_reading (t0 : Word) {e : Nat} (h : e < 2 ^ 32) : (t0 + BitVec.ofNat 32 e - t0).toNat = e := by
  rw [BitVec.add_comm, BitVec.add_sub_cancel, BitVec.toNat_ofNat, Nat.mod_eq_of_lt h]

/-- One poll: the elapsed time of its reading, and the answers to its two bytes. -/
abbrev PollInput := Nat × Byte × Byte

/-- The answers to the polls, in order. -/
def pollAnswers (polls : List PollInput) : List Answer := polls.flatMap fun x => goodAnswers [x.2.1, x.2.2]

/-- The readings after the polls, in order. -/
def State.pollTimes (polls : List PollInput) (s : State) : List Word :=
  polls.map fun x => s.cur.waitStart + BitVec.ofNat 32 x.1

/-- The events of a busy poll. -/
def State.busyPoll (s : State) (x : PollInput) : List WireEvent :=
  frameEvents s.clockHz (frameBytes s.cfg .rdsr) [x.2.1, x.2.2] ++ [.time (s.cur.waitStart + BitVec.ofNat 32 x.1)]

/-- After the reading of a busy poll, but for the phase. -/
def State.polled (x : PollInput) (rest : List Answer) (ts : List Word) (s : State) : State :=
  (s.statusRead x.2.1 x.2.2 rest).timed (s.cur.waitStart + BitVec.ofNat 32 x.1) ts

theorem State.goto_self {s : State} {p : Phase} (h : s.phase = p) : s.goto p = s := by
  subst h
  rfl

theorem State.polled_yield_trace (x : PollInput) (rest : List Answer) (ts : List Word) (s : State) :
    (s.polled x rest ts).yieldStep.trace = s.trace ++ (s.busyPoll x ++ [.yield]) := by
  simp [State.polled, State.timed, State.statusRead, State.yieldStep, State.busyPoll]

/-- Before the next poll, after busy polls in time and their Yields. The line, the index and the status byte depend on whether
there was any. -/
def State.polledAll (line : CsLine) (j : Nat) (sr : Byte) (polls : List PollInput) (rest : List Answer) (ts : List Word)
    (s : State) : State :=
  { s with
    cs := line
    trace := s.trace ++ polls.flatMap fun x => s.busyPoll x ++ [.yield]
    cur := { s.cur with i := j, sr := sr }
    env := { s.env with answers := rest, times := ts } }

section
variable {i : Instr} {r : WaitRet} {s : State} (h : LoneWait i r s)
include h

theorem LoneWait.step_exec {p : Phase} (hp : s.phase = p) (hrun : p ≠ .idle) (hframe : ∀ u pt, p ≠ .frame u pt) :
    step s = exec i s :=
  step_command h.valid h.sched (hp ▸ hrun) (hp ▸ hframe) h.instr

/-- The frame of a busy poll. -/
theorem LoneWait.run_busyFrame {p sr : Byte} {rest : List Answer} (hbusy : sr.getLsbD 0 = true)
    (hans : s.env.answers = goodAnswers [p, sr] ++ rest) (hp : s.phase = .frame (.poll r) .csLow) (n : Nat) :
    runSteps (n + 6) s = runSteps n ((s.statusRead p sr rest).goto (.pollT r)) := by
  have hopen : step s = .next (s.openFrame (.poll r)) := by rw [step_frame h.valid h.sched hp, frameStep_csLow hp]
  rw [runSteps_succ hopen, run_statusFrame rfl h.valid h.sched h.chip h.free hans, State.afterFrame,
    State.afterPoll_busy (s := s.statusRead p sr rest) r hbusy]

/-- A busy poll with its reading, which decides. -/
theorem LoneWait.run_busyPoll {x : PollInput} {rest : List Answer} {ts : List Word} (hx : x.1 < 2 ^ 32)
    (hbusy : x.2.2.getLsbD 0 = true) (hans : s.env.answers = goodAnswers [x.2.1, x.2.2] ++ rest)
    (htimes : s.env.times = (s.cur.waitStart + BitVec.ofNat 32 x.1) :: ts) (hp : s.phase = .frame (.poll r) .csLow) (n : Nat) :
    runSteps (n + 7) s =
      runSteps n ((s.polled x rest ts).goto (if s.cfg.tWaitUs < x.1 then .failing .timeout else .pollY r)) := by
  have hwait : LoneWait i r ((s.statusRead x.2.1 x.2.2 rest).goto (.pollT r)) :=
    ⟨h.valid, h.instr, h.waits, h.sched, h.free, h.chip⟩
  obtain ⟨hvalue, hnow⟩ := now_ready (s := (s.statusRead x.2.1 x.2.2 rest).goto (.pollT r)) htimes
  have htime := (hwait.step_exec rfl nofun nofun).trans (exec_pollT h.waits rfl)
  rw [State.pollTime, hvalue, hnow, State.goto_cur, State.statusRead_waitStart, elapsed_of_reading _ hx] at htime
  rw [h.run_busyFrame hbusy hans hp]
  exact runSteps_succ htime

/-- A busy poll in time, up to the next poll. -/
theorem LoneWait.run_pollAgain {x : PollInput} {rest : List Answer} {ts : List Word} (hx : x.1 < 2 ^ 32)
    (hin : x.1 ≤ s.cfg.tWaitUs) (hbusy : x.2.2.getLsbD 0 = true) (hans : s.env.answers = goodAnswers [x.2.1, x.2.2] ++ rest)
    (htimes : s.env.times = (s.cur.waitStart + BitVec.ofNat 32 x.1) :: ts) (hp : s.phase = .frame (.poll r) .csLow) (n : Nat) :
    runSteps (n + 8) s = runSteps n (s.polled x rest ts).yieldStep := by
  have hwait : LoneWait i r ((s.polled x rest ts).goto (.pollY r)) := ⟨h.valid, h.instr, h.waits, h.sched, h.free, h.chip⟩
  have hyield := (hwait.step_exec rfl nofun nofun).trans (exec_pollY h.waits rfl)
  rw [h.run_busyPoll hx hbusy hans htimes hp, if_neg (by omega),
    ← State.goto_self (s := (s.polled x rest ts).yieldStep) hp]
  exact runSteps_succ hyield

/-- A busy poll too late, up to the failure. -/
theorem LoneWait.run_latePoll {x : PollInput} {rest : List Answer} {ts : List Word} (hx : x.1 < 2 ^ 32)
    (hlate : s.cfg.tWaitUs < x.1) (hbusy : x.2.2.getLsbD 0 = true) (hans : s.env.answers = goodAnswers [x.2.1, x.2.2] ++ rest)
    (htimes : s.env.times = (s.cur.waitStart + BitVec.ofNat 32 x.1) :: ts) (hp : s.phase = .frame (.poll r) .csLow) (n : Nat) :
    runSteps (n + 7) s = runSteps n ((s.polled x rest ts).goto (.failing .timeout)) := by
  rw [h.run_busyPoll hx hbusy hans htimes hp, if_pos hlate]

theorem LoneWait.step_failing {c : ErrCode} (hp : s.phase = .failing c) : step s = .next (s.raiseErr c) :=
  (h.step_exec hp nofun nofun).trans (exec_failing h.waits hp)

end

/-- Any number of busy polls in time, one after another. -/
theorem run_pollsAgain {i : Instr} {r : WaitRet} {polls : List PollInput} {rest : List Answer} {ts : List Word} {s : State}
    (h : LoneWait i r s) (hp : s.phase = .frame (.poll r) .csLow) (hin : ∀ x ∈ polls, x.1 ≤ s.cfg.tWaitUs)
    (hbusy : ∀ x ∈ polls, x.1 < 2 ^ 32 ∧ x.2.2.getLsbD 0 = true)
    (htimes : s.env.times = s.pollTimes polls ++ ts) (hans : s.env.answers = pollAnswers polls ++ rest) :
    ∃ line j b, ∀ n, runSteps (8 * polls.length + n) s = runSteps n (s.polledAll line j b polls rest ts) := by
  induction polls generalizing s with
  | nil =>
    obtain rfl : s.env.times = ts := htimes
    obtain rfl : s.env.answers = rest := hans
    exact ⟨s.cs, s.cur.i, s.cur.sr, fun n => by simp [State.polledAll]⟩
  | cons x xs ih =>
    obtain ⟨hx, hxs⟩ := List.forall_mem_cons.1 hbusy
    obtain ⟨hxin, hxsin⟩ := List.forall_mem_cons.1 hin
    have hround := h.run_pollAgain (x := x) (rest := pollAnswers xs ++ rest) hx.1 hxin hx.2 hans htimes hp
    obtain ⟨line, j, b, hrun⟩ := ih (s := (s.polled x (pollAnswers xs ++ rest) (s.pollTimes xs ++ ts)).yieldStep)
      ⟨h.valid, h.instr, h.waits, h.sched, h.free, h.chip⟩ hp hxsin hxs rfl rfl
    refine ⟨line, j, b, fun n => ?_⟩
    have hlen : 8 * (x :: xs).length + n = 8 * xs.length + n + 8 := by rw [List.length_cons]; omega
    rw [hlen]
    refine (hround _).trans ((hrun n).trans ?_)
    simp only [State.polledAll, State.polled_yield_trace, List.flatMap_cons, List.append_assoc]
    rfl

/-- Settles O30: the polls in time, the late one whose reading decides, and the failure; until then the command runs. -/
theorem waitEndsWithTimeout : Obligations.WaitEndsWithTimeout := by
  intro i r s polls last ts rest hv hinstr hwaits hp hs hfree hchip hin hlate hbusy htimes hans
  obtain ⟨hpolls, hlast⟩ := List.forall_mem_append.1 hbusy
  obtain ⟨hlastTime, hlastBusy⟩ := List.forall_mem_singleton.1 hlast
  rw [List.map_append, List.append_assoc] at htimes
  rw [List.flatMap_append, List.append_assoc] at hans
  obtain ⟨line, j, b, hrun⟩ := run_pollsAgain (rest := pollAnswers [last] ++ rest) (ts := s.pollTimes [last] ++ ts)
    ⟨hv, hinstr, hwaits, hs, hfree, hchip⟩ hp hin hpolls htimes hans
  let q := s.polledAll line j b polls (pollAnswers [last] ++ rest) (s.pollTimes [last] ++ ts)
  have hwait : LoneWait i r q := ⟨hv, hinstr, hwaits, hs, hfree, hchip⟩
  have hfail : LoneWait i r ((q.polled last rest ts).goto (.failing .timeout)) := ⟨hv, hinstr, hwaits, hs, hfree, hchip⟩
  have hend (n : Nat) := (hrun (n + 7)).trans (hwait.run_latePoll hlastTime hlate hlastBusy rfl rfl hp n)
  refine ⟨fun k t hk ht => running_before hv hs (hend 0) nofun hk ht, _, (hend 1).trans (runSteps_succ (hfail.step_failing rfl)),
    rfl, rfl, rfl, rfl, rfl, ?_, rfl, rfl⟩
  simp [q, State.polledAll, State.polled, State.timed, State.statusRead, State.raiseErr, State.busyPoll, frameBytes, opRDSR]

end Sys2Proof.Machine
end

section
/-! PROOFS. The read commands (spec/42_read.md R221, R222): their start and completion, and the whole run of READ_BLOCK (R220, R223,
R353) over its one RDSR frame and its one READ frame. -/

namespace Sys2Proof.Machine

/-! ### Start and completion (42_read.md R221, R222) -/

section
variable {body done : State → State} {s : State}

theorem runWaiting_of_check (hp : s.phase = .check) : runWaiting body done s = .next (body s) := by
  simp only [runWaiting, hp]

theorem runWaiting_of_complete (hp : s.phase = .complete) : runWaiting body done s = .next (done s) := by
  simp only [runWaiting, hp]

end

section
variable {k : State → State} {s : State}

theorem State.requireRange_fits {a n : Nat} (h : a + n ≤ s.cfg.cap) : s.requireThat (inRange s.cfg a n) k = k s :=
  if_pos (decide_eq_true h)

theorem State.requireBuf_fits (h : s.cLen ≤ s.cfg.bufBytes) : s.requireBuf k = k s := if_neg (Nat.not_lt.2 h)

theorem State.unlessEmpty_nonempty (h : s.cLen ≠ 0) : s.unlessEmpty k = k s := if_neg h

end

/-- The first reading of a wait (41_status.md R196), field by field. -/
theorem State.startWait_eq (r : WaitRet) (s : State) : s.startWait r = { s with
    trace := s.trace ++ [.time s.nowValue], env := s.env.afterNow, cur := { s.cur with waitStart := s.nowValue }
    phase := .frame (.poll r) .csLow } := rfl

section
variable {s : State}

theorem exec_readByte_check (hp : s.phase = .check) (hinit : s.initDone = true) (hrange : s.cAddr + 1 ≤ s.cfg.cap) :
    exec .readByte s = .next (s.startWait .read) := by
  rw [exec, execReadByte, runWaiting_of_check hp, State.requireInit_done hinit, State.requireRange_fits hrange]

theorem exec_readBlock_check (hp : s.phase = .check) (hinit : s.initDone = true) (hrange : s.cAddr + s.cLen ≤ s.cfg.cap)
    (hbuf : s.cLen ≤ s.cfg.bufBytes) (hlen : s.cLen ≠ 0) : exec .readBlock s = .next (s.startWait .read) := by
  rw [exec, execReadBlock, runWaiting_of_check hp, State.requireInit_done hinit, State.requireRange_fits hrange,
    State.requireBuf_fits hbuf, State.unlessEmpty_nonempty hlen]

theorem exec_readByte_complete (hp : s.phase = .complete) : exec .readByte s = .next ((s.setRdata s.cur.d).succeed 1) := by
  rw [exec, execReadByte, runWaiting_of_complete hp]

theorem exec_readBlock_complete (hp : s.phase = .complete) : exec .readBlock s = .next (s.succeed s.lat.len) := by
  rw [exec, execReadBlock, runWaiting_of_complete hp]

end

/-- Settles O32: the checks pass, one by one, up to the first reading; and what each command does at its completion. -/
theorem readCommandsStartAndComplete : Obligations.ReadCommandsStartAndComplete := by
  intro s
  refine ⟨fun hp hinit hrange => ?_, fun hp hinit hrange hbuf hlen => ?_, fun hp => ⟨?_, ?_⟩⟩
  · rw [exec_readByte_check hp hinit hrange, State.startWait_eq]
  · rw [exec_readBlock_check hp hinit hrange hbuf (BitVec.toNat_ne_iff_ne.2 hlen), State.startWait_eq]
  · exact exec_readByte_complete hp
  · exact exec_readBlock_complete hp

/-! ### A wait whose first poll is ready (41_status.md R196) -/

/-- Right before the first poll of a command that the CMD write `v` starts and whose wait `r` begins with the reading `t`; the readings
`ts` are left. -/
def State.waitBegun (v : Word) (r : WaitRet) (t : Word) (ts : List Word) (s : State) : State :=
  { s with
    lat := { code := v.setWidth 8, addr := s.regs.addr, len := s.regs.len, data := s.regs.wdata, clk := s.regs.clkcfg }
    trace := s.trace ++ [.time t]
    cur := { s.cur with waitStart := t }
    env := { s.env with sched := [], times := ts }
    phase := .frame (.poll r) .csLow }

/-- The wait of a command that starts begins with the reading that the time source has ready. -/
theorem State.start_startWait {s : State} {t : Word} {ts : List Word} (v : Word) (r : WaitRet) (h : s.env.times = t :: ts) :
    ((s.setSched []).start v).startWait r = s.waitBegun v r t ts := by
  simp [State.startWait_eq, State.waitBegun, State.start, State.setSched, State.nowValue, Env.afterNow, h]

theorem LoneWait.statusRead {i : Instr} {r : WaitRet} {s : State} (w : LoneWait i r s) (p sr : Byte) (rest : List Answer)
    (q : Phase) : LoneWait i r ((s.statusRead p sr rest).goto q) :=
  ⟨w.valid, w.instr, w.waits, w.sched, w.free, w.chip⟩

/-- The frame of a ready poll, up to the frame that the wait is for. -/
theorem LoneWait.run_readyFrame {i : Instr} {r : WaitRet} {s : State} (h : LoneWait i r s) {p sr : Byte} {rest : List Answer}
    (hready : sr.getLsbD 0 = false) (hans : s.env.answers = goodAnswers [p, sr] ++ rest)
    (hp : s.phase = .frame (.poll r) .csLow) (n : Nat) :
    runSteps (n + 6) s = runSteps n ((s.statusRead p sr rest).goto (.frame r.use .csLow)) := by
  have hopen : step s = .next (s.openFrame (.poll r)) := by rw [step_frame h.valid h.sched hp, frameStep_csLow hp]
  rw [runSteps_succ hopen, run_statusFrame rfl h.valid h.sched h.chip h.free hans, State.afterFrame,
    State.afterPoll_ready (s := s.statusRead p sr rest) r hready]

/-! ### The opcode and the address bytes of a frame (30_encoding.md R126) -/

/-- After the transfers of `tx`, answered well by `rx`; the answers `rest` are left. -/
def State.exchanged (tx rx : List Byte) (rest : List Answer) (s : State) : State :=
  { s with
    trace := s.trace ++ List.zipWith (fun t r => WireEvent.xfer t r true) tx rx
    env := { s.env with answers := rest } }

theorem State.exchanged_nil {s : State} {rest : List Answer} (tx : List Byte) (h : s.env.answers = rest) :
    s.exchanged tx [] rest = s := by
  subst h
  simp [State.exchanged]

theorem State.exchanged_answered (t r : Byte) (tx rx : List Byte) (mid rest : List Answer) (s : State) :
    (s.answered t r mid).exchanged tx rx rest = s.exchanged (t :: tx) (r :: rx) rest := by
  simp [State.exchanged, State.answered, State.emit]

@[simp] theorem State.answered_frameAddr (t r : Byte) (rest : List Answer) (u : FrameUse) (s : State) :
    (s.answered t r rest).frameAddr u = s.frameAddr u := by cases u <;> rfl

/-- After BEGIN and the opcode and the address bytes of a frame, answered by `h`, but for the cursor and the phase; the answers `rest`
are left. -/
def State.headSent (u : FrameUse) (h : List Byte) (rest : List Answer) (s : State) : State :=
  { s with
    cs := .low
    trace := s.trace ++ (.cs false :: .beginTxn s.clockHz .msbFirst mode0 ::
      List.zipWith (fun t r => WireEvent.xfer t r true) (s.frameOp u :: s.frameAddr u) h)
    env := { s.env with answers := rest } }

theorem State.goto_enterAddr (p : Phase) (u : FrameUse) (j : Nat) (s : State) : (s.goto p).enterAddr u j = s.enterAddr u j := by
  unfold State.enterAddr
  rw [State.goto_frameAddr]
  rfl

theorem goodAnswers_append (h d : List Byte) : goodAnswers (h ++ d) = goodAnswers h ++ goodAnswers d := List.map_append

section
variable {u : FrameUse} {rest : List Answer} {s : State} (hv : s.cfg.valid = true) (hs : s.env.sched = [])
  (hchip : s.env.chip = none)
include hv hs hchip

theorem step_addr {j : Nat} {tx b : Byte} (htx : (s.frameAddr u)[j]? = some tx) (hans : s.env.answers = ⟨b, true⟩ :: rest)
    (hp : s.phase = .frame u (.addr j)) : step s = .next ((s.answered tx b rest).enterAddr u (j + 1)) := by
  rw [step_frame hv hs hp, frameStep_addr hp htx, xferChk_good hchip hans]

/-- The address bytes from the j-th on. -/
theorem run_address {j : Nat} {rx : List Byte} (hlen : j + rx.length = (s.frameAddr u).length)
    (hans : s.env.answers = goodAnswers rx ++ rest) (n : Nat) :
    runSteps (n + rx.length) (s.enterAddr u j) =
      runSteps n ((s.exchanged ((s.frameAddr u).drop j) rx rest).enterAddr u (s.frameAddr u).length) := by
  induction rx generalizing j s with
  | nil =>
    obtain rfl : j = (s.frameAddr u).length := hlen
    rw [State.exchanged_nil (rest := rest) _ hans]
    rfl
  | cons b rx ih =>
    have hj : j < (s.frameAddr u).length := by rw [← hlen, List.length_cons]; omega
    have hstep := step_addr (s := s.goto (.frame u (.addr j))) hv hs hchip
      (by rw [State.goto_frameAddr, List.getElem?_eq_getElem hj]) hans rfl
    have hrest := ih (s := s.answered (s.frameAddr u)[j] b (goodAnswers rx ++ rest)) (j := j + 1) hv hs hchip
      (by rw [State.answered_frameAddr, ← hlen, List.length_cons]; omega) rfl
    rw [State.answered_frameAddr, State.exchanged_answered, ← List.drop_eq_getElem_cons hj] at hrest
    rw [State.enterAddr_addr hj, ← hrest, ← State.goto_enterAddr (.frame u (.addr j))]
    exact runSteps_succ hstep

/-- The opcode and all address bytes. -/
theorem run_opcodeAndAddress {h : List Byte} (hlen : h.length = 1 + (s.frameAddr u).length)
    (hans : s.env.answers = goodAnswers h ++ rest) (hp : s.phase = .frame u .opcode) (n : Nat) :
    runSteps (n + h.length) s =
      runSteps n ((s.exchanged (s.frameOp u :: s.frameAddr u) h rest).enterAddr u (s.frameAddr u).length) := by
  obtain ⟨p, rx, rfl⟩ : ∃ p rx, h = p :: rx := List.exists_cons_of_length_pos (by omega)
  rw [List.length_cons, Nat.add_comm] at hlen
  have haddr := run_address (u := u) (s := s.answered (s.frameOp u) p (goodAnswers rx ++ rest)) (j := 0) hv hs hchip
    (by rw [State.answered_frameAddr, Nat.zero_add, Nat.add_left_cancel hlen]) rfl n
  rw [State.answered_frameAddr, State.exchanged_answered, List.drop_zero] at haddr
  exact (runSteps_succ (step_opcode hv hs hchip hans hp)).trans haddr

/-- From CS(0) through the address bytes, on a bus that is granted and with transfers that succeed. -/
theorem run_frameHead {h : List Byte} (hfree : s.env.busFree = true) (hlen : h.length = 1 + (s.frameAddr u).length)
    (hans : s.env.answers = goodAnswers h ++ rest) (hp : s.phase = .frame u .csLow) (n : Nat) :
    runSteps (n + h.length + 2) s = runSteps n ((s.headSent u h rest).enterAddr u (s.frameAddr u).length) := by
  let q := (s.openFrame u).txnBegin.goto (.frame u .opcode)
  have hop : q.frameOp u = s.frameOp u := by simp [q, State.openFrame]
  have haddr : q.frameAddr u = s.frameAddr u := by simp [q, State.openFrame]
  have hsent : q.exchanged (s.frameOp u :: s.frameAddr u) h rest = (s.headSent u h rest).goto (.frame u .opcode) := by
    simp [q, State.headSent, State.exchanged, State.openFrame, State.goto, State.csLow, State.txnBegin, State.emit, hchip]
  have hopen : step s = .next (s.openFrame u) := by rw [step_frame hv hs hp, frameStep_csLow hp]
  have hbytes := run_opcodeAndAddress (u := u) (s := q) hv hs (by simp [q, State.openFrame, hchip]) (haddr ▸ hlen) hans rfl n
  rw [hop, haddr, hsent, State.goto_enterAddr] at hbytes
  rw [runSteps_succ hopen, runSteps_succ (step_txnBegin (s := s.openFrame u) hv hs hfree rfl), hbytes]

end

/-! ### The data bytes of READ_BLOCK (42_read.md R221) -/

/-- After the data bytes `d` of READ_BLOCK, but for the phase; the answers `rest` are left. -/
def State.received (d : List Byte) (rest : List Answer) (s : State) : State :=
  { s.exchanged (List.replicate d.length s.cfg.dummyTx) d rest with
    buf := s.buf.setAll (bytesFrom s.cur.i d)
    cur := { s.cur with i := s.cur.i + d.length } }

theorem State.received_nil {s : State} {rest : List Answer} (h : s.env.answers = rest) : s.received [] rest = s := by
  rw [State.received, State.exchanged_nil _ h]
  rfl

theorem State.received_cons (b : Byte) (d : List Byte) (mid rest : List Answer) (p : Phase) (s : State) :
    ((s.received [b] mid).goto p).received d rest = (s.received (b :: d) rest).goto p := by
  simp [State.received, State.exchanged, State.goto, bytesFrom, Memory.setAll, List.replicate_succ, Nat.add_assoc,
    Nat.add_comm 1]

/-- The program point of READ_BLOCK's data phase: before the next byte, or the end. -/
def State.dataPoint (s : State) : FramePoint := if s.cur.i < s.cLen then .data else .csHigh false

section
variable {d : List Byte} {rest : List Answer} {s : State} (hv : s.cfg.valid = true) (hs : s.env.sched = [])
  (hchip : s.env.chip = none) (hcmd : isByteCommand s.command = false) (hbuf : s.cLen ≤ s.cfg.bufBytes)
include hv hs hchip hcmd hbuf

theorem step_readData {b : Byte} (hi : s.cur.i < s.cLen) (hans : s.env.answers = ⟨b, true⟩ :: rest)
    (hp : s.phase = .frame .read .data) :
    step s = .next ((s.received [b] rest).goto (.frame .read (s.received [b] rest).dataPoint)) := by
  obtain ⟨hanswer, henv⟩ := State.xferAnswer_ready hchip hans
  rw [step_frame hv hs hp, frameStep_data hp, FrameUse.dataPhase,
    readData_block hcmd (lt_of_lt_of_le hi hbuf) (by rw [hanswer]; rfl), hanswer, henv]
  rfl

theorem run_readData (hlen : s.cur.i + d.length = s.cLen) (hans : s.env.answers = goodAnswers d ++ rest)
    (hp : s.phase = .frame .read s.dataPoint) (n : Nat) :
    runSteps (n + d.length) s = runSteps n ((s.received d rest).goto (.frame .read (.csHigh false))) := by
  induction d generalizing s with
  | nil =>
    have hend : s.dataPoint = .csHigh false := if_neg (by rw [← hlen]; exact Nat.lt_irrefl _)
    rw [State.received_nil (rest := rest) hans, State.goto_self (hp.trans (by rw [hend]))]
    rfl
  | cons b d ih =>
    have hi : s.cur.i < s.cLen := by rw [← hlen, List.length_cons]; omega
    have hdata : s.dataPoint = .data := if_pos hi
    have hstep := step_readData hv hs hchip hcmd hbuf hi hans (hp.trans (by rw [hdata]))
    have hleft : s.cur.i + 1 + d.length = s.cLen := by rw [← hlen, List.length_cons]; omega
    have hnext := ih (s := (s.received [b] (goodAnswers d ++ rest)).goto
      (.frame .read (s.received [b] (goodAnswers d ++ rest)).dataPoint)) hv hs hchip hcmd hbuf hleft rfl rfl
    rw [State.received_cons] at hnext
    exact (runSteps_succ hstep).trans hnext

end

/-! ### The READ frame of READ_BLOCK (30_encoding.md R127) -/

/-- After the END of READ_BLOCK's READ frame, whose opcode and address are answered by `h` and whose data bytes are `d`, but for the
phase. -/
def State.blockRead (h d : List Byte) (rest : List Answer) (s : State) : State :=
  { s with
    cs := .high
    trace := s.trace ++ frameEvents s.clockHz (frameBytes s.cfg (.read s.cAddr d.length)) (h ++ d)
    buf := s.buf.setAll (bytesFrom 0 d)
    cur := { s.cur with i := d.length }
    env := { s.env with answers := rest } }

/-- At the first data byte of the READ frame. -/
def State.dataBegun (s : State) : State := (s.setCur { s.cur with i := 0 }).goto (.frame .read .data)

theorem enterAddr_read {j : Nat} {s : State} (hj : (s.frameAddr .read).length ≤ j) : s.enterAddr .read j = s.dataBegun :=
  State.enterAddr_data hj rfl

theorem State.dataBegun_dataPoint {s : State} (h : s.cLen ≠ 0) : s.dataBegun.dataPoint = .data :=
  if_pos (Nat.pos_of_ne_zero h)

/-- The events of a frame whose opcode and address `tx` are answered by `h`. -/
theorem frameEvents_append (clk : Word) {tx h : List Byte} (tx' d : List Byte) (hlen : tx.length = h.length) :
    frameEvents clk (tx ++ tx') (h ++ d) = .cs false :: .beginTxn clk .msbFirst mode0 ::
      (List.zipWith (fun t r => WireEvent.xfer t r true) tx h ++
        (List.zipWith (fun t r => WireEvent.xfer t r true) tx' d ++ [.cs true, .endTxn])) := by
  rw [frameEvents, List.zipWith_append hlen, List.append_assoc]

theorem frameBytes_read (n : Nat) (s : State) : frameBytes s.cfg (.read s.cAddr n) =
    (s.frameOp .read :: s.frameAddr .read) ++ List.replicate n s.cfg.dummyTx := rfl

theorem length_frameAddr_read (s : State) : (s.frameAddr .read).length = s.cfg.nAddr := addrBytes_length s.cfg s.cAddr

/-- The END of the READ frame, after its head and its data bytes. -/
theorem afterFrame_read {h d : List Byte} (mid rest : List Answer) (p : Phase) {s : State}
    (hlen : h.length = 1 + s.cfg.nAddr) (hchip : s.env.chip = none) :
    (((s.headSent .read h mid).dataBegun.received d rest).goto p).csHigh.txnEnd.afterFrame .read =
      (s.blockRead h d rest).goto .complete := by
  have hhead : (s.frameOp .read :: s.frameAddr .read).length = h.length := by
    rw [hlen, List.length_cons, length_frameAddr_read, Nat.add_comm]
  rw [State.blockRead, frameBytes_read, frameEvents_append _ _ _ hhead]
  simp [State.afterFrame, State.headSent, State.dataBegun, State.received, State.exchanged, State.goto, State.csHigh,
    State.txnEnd, State.setCur, State.emit, hchip]

/-- After a READ_BLOCK whose first poll is answered by `p` and `sr`, which is ready, and whose READ frame by `h` and `d`. -/
def State.blockDone (p sr : Byte) (h d : List Byte) (rest : List Answer) (s : State) : State :=
  ((s.statusRead p sr rest).blockRead h d rest).succeed s.lat.len

theorem isByteCommand_readBlock {s : State} (hi : hostInstr s.cfg s.lat.code = some .readBlock) :
    isByteCommand s.command = false := by
  rw [State.command, (hostInstr_decodes hi).1]
  rfl

section
variable {h d : List Byte} {rest : List Answer} {s : State} (w : LoneWait .readBlock .read s) (hbuf : s.cLen ≤ s.cfg.bufBytes)
  (hlen : s.cLen ≠ 0) (hh : h.length = 1 + s.cfg.nAddr) (hd : d.length = s.cLen)
include w hbuf hlen hh hd

/-- From CS(0) through END. -/
theorem run_readBlockFrame (hp : s.phase = .frame .read .csLow) (hans : s.env.answers = goodAnswers (h ++ d) ++ rest) (n : Nat) :
    runSteps (n + 2 + d.length + h.length + 2) s = runSteps n ((s.blockRead h d rest).goto .complete) := by
  rw [goodAnswers_append, List.append_assoc] at hans
  have hcmd := isByteCommand_readBlock w.instr
  have hhead := run_frameHead w.valid w.sched w.chip w.free (by rw [hh, length_frameAddr_read]) hans hp
  have hbegin := enterAddr_read (s := s.headSent .read h (goodAnswers d ++ rest)) (length_frameAddr_read s).le
  have hbytes := run_readData (s := (s.headSent .read h (goodAnswers d ++ rest)).dataBegun) w.valid w.sched w.chip hcmd hbuf
    ((Nat.zero_add _).trans hd) rfl (congrArg _ (State.dataBegun_dataPoint hlen).symm)
  have hend := run_frameEnd (s := ((s.headSent .read h (goodAnswers d ++ rest)).dataBegun.received d rest).goto
    (.frame .read (.csHigh false))) w.valid w.sched rfl n
  rw [hhead, length_frameAddr_read, hbegin, hbytes, hend, afterFrame_read _ _ _ hh w.chip]

/-- From CS(0) of the READ frame to idle. -/
theorem run_readBlockEnd (hp : s.phase = .frame .read .csLow) (hans : s.env.answers = goodAnswers (h ++ d) ++ rest) :
    runSteps (1 + 2 + d.length + h.length + 2) s = .next ((s.blockRead h d rest).succeed s.lat.len) := by
  have hreturn : step ((s.blockRead h d rest).goto .complete) = .next ((s.blockRead h d rest).succeed s.lat.len) :=
    (step_command (s := (s.blockRead h d rest).goto .complete) w.valid w.sched nofun nofun w.instr).trans
      (exec_readBlock_complete rfl)
  rw [run_readBlockFrame w hbuf hlen hh hd hp hans]
  exact runSteps_succ hreturn

/-- From the first poll, which is ready, to idle. -/
theorem run_readBlock {p sr : Byte} (hp : s.phase = .frame (.poll .read) .csLow) (hready : sr.getLsbD 0 = false)
    (hans : s.env.answers = goodAnswers ([p, sr] ++ (h ++ d)) ++ rest) :
    runSteps (1 + 2 + d.length + h.length + 2 + 6) s = .next (s.blockDone p sr h d rest) := by
  rw [goodAnswers_append, List.append_assoc] at hans
  rw [w.run_readyFrame hready hans hp]
  exact run_readBlockEnd (w.statusRead p sr _ _) hbuf hlen hh hd rfl rfl

end

/-! ### BUF after the READ frame (42_read.md R221) -/

theorem get?_bytesFrom {m : Memory} {a j : Nat} {d : List Byte} {b : Byte} (h : d[j]? = some b) :
    (m.setAll (bytesFrom a d)).get? (a + j) = some b := by
  have hj := (List.getElem?_eq_some_iff.1 h).1
  obtain ⟨v, hv, hget⟩ := Memory.get?_setAll_mem (m := m) (bytesFrom_addr (l := d).2 ⟨Nat.le_add_right a j, by omega⟩)
  obtain ⟨k, hk, hd⟩ := mem_bytesFrom.1 hv
  obtain rfl : j = k := by omega
  rw [hget, ← hd, h]

theorem get?_bytesFrom_above {m : Memory} {a x : Nat} {d : List Byte} (h : a + d.length ≤ x) :
    (m.setAll (bytesFrom a d)).get? x = m.get? x :=
  Memory.get?_setAll_ne fun c hc hx => by
    have := bytesFrom_addr.1 ⟨c, hc, hx⟩
    omega

section
variable {p sr : Byte} {h d : List Byte} {rest : List Answer} {s : State} {j : Nat}

theorem State.blockDone_buf : (s.blockDone p sr h d rest).buf = s.buf.setAll (bytesFrom 0 d) := rfl

theorem State.blockDone_epoch : (s.blockDone p sr h d rest).env.epoch = s.env.epoch := rfl

theorem State.blockDone_bufByte {b : Byte} (hb : d[j]? = some b) : (s.blockDone p sr h d rest).bufByte j = b := by
  have hget := get?_bytesFrom (m := s.buf) (a := 0) hb
  rw [Nat.zero_add] at hget
  rw [State.bufByte, State.blockDone_buf, hget, Option.getD_some]

theorem State.blockDone_bufByte_above (hj : d.length ≤ j) : (s.blockDone p sr h d rest).bufByte j = s.bufByte j := by
  rw [State.bufByte, State.blockDone_buf, State.blockDone_epoch, get?_bytesFrom_above ((Nat.zero_add d.length).trans_le hj),
    State.bufByte]

end

/-! ### The whole run of READ_BLOCK (42_read.md R220, R221, R353) -/

/-- From the CMD write to the first poll. -/
theorem step_readBlock {s : State} {t : Word} {ts : List Word} (hv : s.cfg.valid = true) (hp : s.phase = .idle)
    (hinit : s.initDone = true) (hs : s.env.sched = [.host (.write s.cfg.hostBase (lanesOf 0x21))])
    (hrange : s.regs.addr.toNat + s.regs.len.toNat ≤ s.cfg.cap) (hbuf : s.regs.len.toNat ≤ s.cfg.bufBytes)
    (hlen : s.regs.len.toNat ≠ 0) (htimes : s.env.times = t :: ts) : step s = .next (s.waitBegun 0x21 .read t ts) := by
  rw [step_cmd hv hs, cmdStep_start (i := .readBlock) (s := s.setSched []) hp rfl,
    exec_readBlock_check (s := (s.setSched []).start 0x21) rfl hinit hrange hbuf hlen,
    State.start_startWait 0x21 .read htimes]

/-- Settles O56: the CMD write, and from the first poll on the RDSR frame, the READ frame and the completion. -/
theorem readBlockRun : Obligations.ReadBlockRun := by
  intro s a n t0 ts p sr h d rest hv hp hinit hfree hchip hs ha hn hpos hrange hbuf htimes hans hready hh hd
  subst ha hn
  have hlen : s.regs.len.toNat ≠ 0 := by omega
  have hsteps : 13 + s.cfg.nAddr + s.regs.len.toNat = 1 + 2 + d.length + h.length + 2 + 6 + 1 := by omega
  have hwait : LoneWait .readBlock .read (s.waitBegun 0x21 .read t0 ts) := ⟨hv, rfl, rfl, rfl, hfree, hchip⟩
  have hrun := run_readBlock hwait hbuf hlen hh hd rfl hready hans
  refine ⟨(s.waitBegun 0x21 .read t0 ts).blockDone p sr h d rest, ?_, ?_, fun j b hb => State.blockDone_bufByte hb,
    fun j hj => State.blockDone_bufByte_above (hd.trans_le hj), rfl, rfl, rfl, rfl, rfl, rfl⟩
  · rw [hsteps, runSteps_succ (step_readBlock hv hp hinit hs hrange hbuf hlen htimes), hrun]
  · simp [State.blockDone, State.blockRead, State.statusRead, State.waitBegun, State.cAddr, hd]

end Sys2Proof.Machine
end

section
/-! PROOFS. The page splitter as a list (spec/43_write.md R244, R246). -/

namespace Sys2Proof.Machine

/-! ### The list of a cursor -/

@[simp] theorem Cursor.advance_rem (P : Nat) (c : Cursor) : (c.advance P).rem = c.rem - c.segLen := rfl
@[simp] theorem Cursor.advance_segAddr (P : Nat) (c : Cursor) : (c.advance P).segAddr = c.segAddr + c.segLen := rfl

/-- The segment a cursor stands at. -/
def Cursor.segment (c : Cursor) : Segment := ⟨c.segAddr, c.segLen, c.off⟩

theorem segmentsFrom_nil {P fuel : Nat} {c : Cursor} (h : c.rem = 0) : segmentsFrom P fuel c = [] := by
  cases fuel with
  | zero => rfl
  | succ fuel => exact if_pos h

theorem segmentsFrom_cons {P fuel : Nat} {c : Cursor} (h : c.rem ≠ 0) :
    segmentsFrom P (fuel + 1) c = c.segment :: segmentsFrom P fuel (c.advance P) := if_neg h

/-- R246 (a): the first segment is where the cursor stands. -/
theorem segmentsFrom_head {P fuel : Nat} {c : Cursor} {g : Segment} (h : (segmentsFrom P fuel c)[0]? = some g) :
    g = c.segment := by
  cases fuel with
  | zero => exact nomatch h
  | succ fuel =>
    by_cases hrem : c.rem = 0
    · simp [segmentsFrom_nil hrem] at h
    · simpa [segmentsFrom_cons hrem] using h.symm

/-- R246 (a): a segment starts where the one before it ended. -/
theorem segmentsFrom_contiguous {P fuel k : Nat} {c : Cursor} {g h : Segment} (hg : (segmentsFrom P fuel c)[k]? = some g)
    (hh : (segmentsFrom P fuel c)[k + 1]? = some h) : h.addr = g.addr + g.len ∧ h.off = g.off + g.len := by
  induction fuel generalizing c k with
  | zero => exact nomatch hg
  | succ fuel ih =>
    by_cases hrem : c.rem = 0
    · simp [segmentsFrom_nil hrem] at hg
    · rw [segmentsFrom_cons hrem, List.getElem?_cons_succ] at hh
      rw [segmentsFrom_cons hrem] at hg
      cases k with
      | zero =>
        obtain rfl : c.segment = g := Option.some.inj hg
        rw [segmentsFrom_head hh]
        exact ⟨rfl, rfl⟩
      | succ k => exact ih hg hh

/-! ### Cursors of a split (43_write.md R244) -/

/-- A cursor whose segment ends with its page, or with the range: the first one of a range, and every later one, which starts a
page (R244). -/
def Cursor.Split (P : Nat) (c : Cursor) : Prop := c.segLen = min (P - c.segAddr % P) c.rem

theorem Cursor.Split.le {P : Nat} {c : Cursor} (h : c.Split P) : c.segLen ≤ c.rem := h.trans_le (Nat.min_le_right _ _)

/-- A segment before the last one ends with its page. -/
theorem Cursor.Split.full {P : Nat} {c : Cursor} (h : c.Split P) (hlt : c.segLen < c.rem) : c.segLen = P - c.segAddr % P := by
  unfold Cursor.Split at h
  omega

section
variable {P : Nat} (hP : 0 < P) {c : Cursor} (h : c.Split P)
include hP h

/-- The segment stays in its page, is not empty, and the next one starts a page. -/
theorem Cursor.Split.fits (hrem : c.rem ≠ 0) : c.segAddr % P + c.segLen ≤ P ∧ 1 ≤ c.segLen ∧
    (c.segLen < c.rem → (c.segAddr + c.segLen) % P = 0) := by
  have hfits := firstSeg_fits (a := c.segAddr) hP (Nat.one_le_iff_ne_zero.2 hrem)
  rwa [← h] at hfits

theorem Cursor.Split.advance (hrem : c.rem ≠ 0) : (c.advance P).Split P := by
  obtain ⟨-, -, hnext⟩ := h.fits hP hrem
  show min P (c.rem - c.segLen) = min (P - (c.segAddr + c.segLen) % P) (c.rem - c.segLen)
  by_cases hlt : c.segLen < c.rem
  · rw [hnext hlt, Nat.sub_zero]
  · rw [Nat.sub_eq_zero_of_le (Nat.le_of_not_lt hlt), Nat.min_zero, Nat.min_zero]

end

/-- Induction over the segments of a split, of which each takes a byte at least. -/
theorem segmentsFrom_induction {P : Nat} (hP : 0 < P) {motive : Cursor → List Segment → Prop}
    (done : ∀ c, c.rem = 0 → motive c [])
    (next : ∀ c l, c.Split P → c.rem ≠ 0 → motive (c.advance P) l → motive c (c.segment :: l))
    {fuel : Nat} {c : Cursor} (hsplit : c.Split P) (hfuel : c.rem ≤ fuel) : motive c (segmentsFrom P fuel c) := by
  induction fuel generalizing c with
  | zero => exact done c (Nat.le_zero.1 hfuel)
  | succ fuel ih =>
    by_cases hrem : c.rem = 0
    · rw [segmentsFrom_nil hrem]
      exact done c hrem
    · obtain ⟨-, hpos, -⟩ := hsplit.fits hP hrem
      rw [segmentsFrom_cons hrem]
      exact next c _ hsplit hrem (ih (hsplit.advance hP hrem) (by rw [Cursor.advance_rem]; omega))

/-! ### The segments of a range (43_write.md R246) -/

section
variable {P fuel : Nat} (hP : 0 < P) {c : Cursor} (h : c.Split P) (hfuel : c.rem ≤ fuel)
include hP h hfuel

/-- R246 (b). -/
theorem segmentsFrom_sum : ((segmentsFrom P fuel c).map Segment.len).sum = c.rem := by
  refine segmentsFrom_induction hP (motive := fun c l => (l.map Segment.len).sum = c.rem) ?_ ?_ h hfuel
  · exact fun c hrem => hrem.symm
  · intro c l hsplit _ hsum
    rw [List.map_cons, List.sum_cons, hsum, Cursor.advance_rem]
    exact Nat.add_sub_of_le hsplit.le

/-- R246 (d): as many segments as the range touches pages. -/
theorem segmentsFrom_length (hrem : c.rem ≠ 0) :
    (segmentsFrom P fuel c).length = (c.segAddr % P + c.rem + P - 1) / P := by
  refine (segmentsFrom_induction hP
    (motive := fun c l => l.length = if c.rem = 0 then 0 else (c.segAddr % P + c.rem + P - 1) / P) ?_ ?_ h hfuel).trans
    (if_neg hrem)
  · exact fun c hrem => (if_pos hrem).symm
  · intro c l hsplit hrem hlen
    obtain ⟨hpage, hpos, hnext⟩ := hsplit.fits hP hrem
    rw [List.length_cons, hlen, if_neg hrem, Cursor.advance_rem]
    rcases hsplit.le.eq_or_lt with heq | hlt
    · have hone : c.segAddr % P + c.rem + P - 1 = c.segAddr % P + c.rem - 1 + P := by omega
      rw [heq, Nat.sub_self, if_pos rfl, hone, Nat.add_div_right _ hP, Nat.div_eq_of_lt (by omega)]
    · have hfull := hsplit.full hlt
      have hmore : c.segAddr % P + c.rem + P - 1 = 0 + (c.rem - c.segLen) + P - 1 + P := by omega
      rw [if_neg (by omega), Cursor.advance_segAddr, hnext hlt, hmore, Nat.add_div_right _ hP]

/-- R246 (b), (e): a segment of a range within the array has a byte at least, and PageCheck, which bounds it by P, holds of it. -/
theorem segmentsFrom_pageCheck {cfg : Config} (hpage : cfg.page = P) (hcap : c.segAddr + c.rem ≤ cfg.cap) :
    ∀ g ∈ segmentsFrom P fuel c, 1 ≤ g.len ∧ pageCheck cfg g.addr g.len = true := by
  revert hcap
  refine segmentsFrom_induction hP
    (motive := fun c l => c.segAddr + c.rem ≤ cfg.cap → ∀ g ∈ l, 1 ≤ g.len ∧ pageCheck cfg g.addr g.len = true)
    ?_ ?_ h hfuel
  · exact fun c _ _ g hg => absurd hg List.not_mem_nil
  · intro c l hsplit hrem hl hcap
    obtain ⟨hfit, hpos, -⟩ := hsplit.fits hP hrem
    have hle := hsplit.le
    refine List.forall_mem_cons.2 ⟨⟨hpos, ?_⟩, hl ?_⟩
    · exact decide_eq_true ⟨(Nat.add_le_add_left hle _).trans hcap, hpage ▸ hfit⟩
    · rw [Cursor.advance_segAddr, Cursor.advance_rem]
      omega

end

/-- The cursor at the first segment of a range. -/
def firstCursor (cfg : Config) (a n : Nat) : Cursor :=
  { segAddr := a, segLen := firstSegLen cfg a n, off := 0, rem := n, k := 0, i := 0, waitStart := 0, sr := 0, d := 0 }

theorem segments_eq (cfg : Config) (a n : Nat) : segments cfg a n = segmentsFrom cfg.page n (firstCursor cfg a n) := rfl

/-- R246 (c). -/
theorem firstCursor_split (cfg : Config) (a n : Nat) : (firstCursor cfg a n).Split cfg.page := rfl

/-- Settles O55: the first segment and the contiguity from the list's recursion, the rest by induction over the split. -/
theorem splitterSegments : Obligations.SplitterSegments := by
  intro c a n hv hn hcap
  have hP := (valid_page hv).1
  have hsplit := firstCursor_split c a n
  rw [segments_eq]
  refine ⟨fun g hg => ?_, fun k g h => segmentsFrom_contiguous, segmentsFrom_sum hP hsplit le_rfl,
    segmentsFrom_length hP hsplit le_rfl (Nat.one_le_iff_ne_zero.1 hn), fun g hg => ?_⟩
  · rw [segmentsFrom_head hg]
    exact ⟨rfl, rfl, rfl⟩
  · obtain ⟨hpos, hcheck⟩ := segmentsFrom_pageCheck hP hsplit le_rfl rfl hcap g hg
    obtain ⟨-, hpage⟩ := of_decide_eq_true hcheck
    exact ⟨hpos, (Nat.le_add_left _ _).trans hpage, hcheck⟩

end Sys2Proof.Machine
end

section
/-! PROOFS. The write and update commands (spec/43_write.md R240 to R246, spec/44_update.md R270 to R273): their start and
completion, and the loop over their segments. -/

namespace Sys2Proof.Machine

/-! ### One program for a write and an update command

An update command has the checks and the count of its write command; what its segments wait for is `State.segWait`. -/

/-- WRITE_BYTE and UPDATE_BYTE. -/
abbrev byteInstrs : List Instr := [.writeByte, .updateByte]

/-- WRITE_PAGE and UPDATE_PAGE. -/
abbrev pageInstrs : List Instr := [.writePage, .updatePage]

/-- WRITE_BLOCK and UPDATE_BLOCK. -/
abbrev blockInstrs : List Instr := [.writeBlock, .updateBlock]

section
variable {i : Instr}

theorem exec_byteInstr (hi : i ∈ byteInstrs) : exec i = execWriteByte := by
  simp only [List.mem_cons, List.not_mem_nil, or_false] at hi
  rcases hi with rfl | rfl <;> rfl

theorem exec_pageInstr (hi : i ∈ pageInstrs) : exec i = execWritePage := by
  simp only [List.mem_cons, List.not_mem_nil, or_false] at hi
  rcases hi with rfl | rfl <;> rfl

theorem exec_blockInstr (hi : i ∈ blockInstrs) : exec i = execWriteBlock := by
  simp only [List.mem_cons, List.not_mem_nil, or_false] at hi
  rcases hi with rfl | rfl <;> rfl

end

/-! ### Completion (43_write.md R242, R243, R245, 44_update.md R271 to R273) -/

section
variable {i : Instr} {s : State} (hp : s.phase = .complete)
include hp

theorem exec_byteInstr_complete (hi : i ∈ byteInstrs) : exec i s = .next (s.succeed 1) := by
  rw [exec_byteInstr hi, execWriteByte, runWaiting_of_complete hp]

theorem exec_pageInstr_complete (hi : i ∈ pageInstrs) : exec i s = .next (s.succeed s.lat.len) := by
  rw [exec_pageInstr hi, execWritePage, runWaiting_of_complete hp]

theorem exec_blockInstr_complete (hi : i ∈ blockInstrs) : exec i s = .next (s.succeed s.lat.len) := by
  rw [exec_blockInstr hi, execWriteBlock, runWaiting_of_complete hp]

end

/-- Settles O34: the byte commands report 1, the others their length. -/
theorem segmentCommandsComplete : Obligations.SegmentCommandsComplete := by
  refine fun i s hp => ⟨exec_byteInstr_complete hp, fun hi => ?_⟩
  simp only [List.mem_cons, List.not_mem_nil, or_false] at hi
  rcases hi with rfl | rfl | rfl | rfl
  · exact exec_blockInstr_complete hp (by decide)
  · exact exec_pageInstr_complete hp (by decide)
  · exact exec_blockInstr_complete hp (by decide)
  · exact exec_pageInstr_complete hp (by decide)

/-! ### Start (43_write.md R242 to R245, 44_update.md R271 to R273) -/

theorem State.requireThat_holds {b : Bool} {k : State → State} {s : State} (h : b = true) : s.requireThat b k = k s := if_pos h

section
variable {i : Instr} {s : State} (hp : s.phase = .check) (hinit : s.initDone = true)
include hp hinit

theorem exec_byteInstr_check (hi : i ∈ byteInstrs) (hrange : s.cAddr + 1 ≤ s.cfg.cap) :
    exec i s = .next (s.beginSegments s.cAddr 1 1) := by
  rw [exec_byteInstr hi, execWriteByte, runWaiting_of_check hp, State.requireInit_done hinit, State.requireRange_fits hrange]

variable (hbuf : s.cLen ≤ s.cfg.bufBytes) (hlen : s.cLen ≠ 0)
include hbuf hlen

theorem exec_pageInstr_check (hi : i ∈ pageInstrs) (hcheck : pageCheck s.cfg s.cAddr s.cLen = true) :
    exec i s = .next (s.beginSegments s.cAddr s.cLen s.cLen) := by
  rw [exec_pageInstr hi, execWritePage, runWaiting_of_check hp, State.requireInit_done hinit, State.requireThat_holds hcheck,
    State.requireBuf_fits hbuf, State.unlessEmpty_nonempty hlen]

theorem exec_blockInstr_check (hi : i ∈ blockInstrs) (hrange : s.cAddr + s.cLen ≤ s.cfg.cap) :
    exec i s = .next (s.beginSegments s.cAddr (firstSegLen s.cfg s.cAddr s.cLen) s.cLen) := by
  rw [exec_blockInstr hi, execWriteBlock, runWaiting_of_check hp, State.requireInit_done hinit, State.requireRange_fits hrange,
    State.requireBuf_fits hbuf, State.unlessEmpty_nonempty hlen]

end

/-- A first segment within the array and one page is waited for; the array of an attached responder is kept (log 9). -/
theorem State.beginSegments_fits {a len n : Nat} {s : State} (h : pageCheck s.cfg a len = true) :
    s.beginSegments a len n = ((s.firstSegment a len n).setEnv s.env.keepBefore).startWait s.segWait := if_pos h

theorem State.setEnv_keepBefore_nowValue (s t : State) : (t.setEnv s.env.keepBefore).nowValue = s.nowValue := by
  simp [State.nowValue]

/-- The wait of a segment, by the running command (43_write.md R240, 44_update.md R270). -/
theorem State.segWait_of_code {i : Instr} {r : WaitRet} {s : State} (hcode : s.lat.code = encode i)
    (h : i ∈ [Instr.writeByte, .writeBlock, .writePage] ∧ r = .write ∨
      i ∈ [Instr.updateByte, .updateBlock, .updatePage] ∧ r = .compare) : s.segWait = r := by
  simp only [List.mem_cons, List.not_mem_nil, or_false] at h
  rcases h with ⟨rfl | rfl | rfl, rfl⟩ | ⟨rfl | rfl | rfl, rfl⟩ <;> rw [State.segWait, command_of_code hcode rfl] <;> rfl

/-- Settles O33: the checks pass, PageCheck holds of the first segment, and its wait begins. -/
theorem segmentCommandsStart : Obligations.SegmentCommandsStart := by
  intro i r s n len hv hp hinit hcode hwait hseg hn hrange hbuf
  have hP := (valid_page hv).1
  have hexec : pageCheck s.cfg s.cAddr len = true ∧ exec i s = .next (s.beginSegments s.cAddr len n) := by
    rcases hseg with ⟨hi, rfl, rfl⟩ | ⟨hi, rfl, rfl, hpage⟩ | ⟨hi, rfl, rfl⟩
    · exact ⟨decide_eq_true ⟨hrange, Nat.mod_lt _ hP⟩, exec_byteInstr_check hp hinit hi hrange⟩
    · have hcheck : pageCheck s.cfg s.cAddr s.cLen = true := decide_eq_true ⟨hrange, hpage⟩
      have hfits := hbuf.resolve_left ((by decide : ∀ j ∈ pageInstrs, j ∉ byteInstrs) i hi)
      exact ⟨hcheck, exec_pageInstr_check hp hinit hfits (Nat.ne_of_gt hn) hi hcheck⟩
    · have hfits := hbuf.resolve_left ((by decide : ∀ j ∈ blockInstrs, j ∉ byteInstrs) i hi)
      exact ⟨State.segOk.pageCheck (blockSegment_ok hv (decide_eq_true hrange) hn hfits),
        exec_blockInstr_check hp hinit hfits (Nat.ne_of_gt hn) hi hrange⟩
  rw [hexec.2, State.beginSegments_fits hexec.1, State.segWait_of_code hcode hwait, State.startWait_eq,
    State.setEnv_keepBefore_nowValue]
  rfl

/-! ### The loop over the segments (43_write.md R244, R245, 44_update.md R270, R273) -/

theorem State.segOk.pos {s : State} (h : s.segOk) : 1 ≤ s.cur.segLen := h.1

theorem State.segOk.le {s : State} (h : s.segOk) : s.cur.segLen ≤ s.cur.rem := h.2.1

/-- After a checked segment: the wait of the next one, whose PageCheck holds (R246 (e)), or the completion. -/
theorem State.nextSegment_of_segOk {s : State} (hv : s.cfg.valid = true) (h : s.segOk) :
    s.nextSegment = (s.setCur (s.cur.advance s.cfg.page)).goto
      (if s.cur.rem = s.cur.segLen then .complete else .waitT0 s.segWait) := by
  have hle := h.le
  refine congrArg (fun p => (s.setCur (s.cur.advance s.cfg.page)).goto p) ?_
  rw [Cursor.advance_rem]
  by_cases hrem : s.cur.rem = s.cur.segLen
  · rw [if_pos hrem, if_pos (Nat.sub_eq_zero_of_le hrem.le)]
  · have hleft : s.cur.rem - s.cur.segLen ≠ 0 := by omega
    have hcheck : pageCheck s.cfg (s.cur.advance s.cfg.page).segAddr (s.cur.advance s.cfg.page).segLen = true :=
      (State.segOk_advance hv h hleft).pageCheck
    rw [if_neg hrem, if_neg hleft, if_pos hcheck]

/-- The wait of a running command's segments, by its code. -/
theorem State.segWait_of_command {i : Instr} {s : State} (h : s.command = some i) :
    s.segWait = if s.lat.code ∈ [encode .updateByte, encode .updateBlock, encode .updatePage] then .compare else .write := by
  rw [State.segWait, h, ← (decodeHost_encode h).2]
  cases i <;> rfl

/-- At the points of a WRITE and of a compare frame the current segment is checked. -/
theorem Inv.segOk_of_frame {u : FrameUse} {pt : FramePoint} {s : State} (h : Inv s) (hp : s.phase = .frame u pt)
    (hu : u = .write ∨ u = .compare) : s.segOk := by
  obtain ⟨i, -, hpoint⟩ := h.running (by simp [hp])
  rw [hp] at hpoint
  obtain ⟨-, -, -, hframe⟩ := hpoint
  have hrange := ((s.frameOk_iff u pt).1 hframe).1
  rcases hu with rfl | rfl
  · exact hrange.1
  · exact hrange

theorem Inv.command {s : State} (h : Inv s) (hp : s.phase ≠ .idle) : ∃ i, s.command = some i := by
  obtain ⟨i, hi, -⟩ := h.running hp
  exact ⟨i, (hostInstr_decodes hi).1⟩

/-- After the END of a frame that ends its segment. -/
theorem Inv.nextSegment {u : FrameUse} {pt : FramePoint} {s : State} (h : Inv s) (hp : s.phase = .frame u pt)
    (hu : u = .write ∨ u = .compare) : s.txnEnd.nextSegment = { s with
      trace := s.trace ++ [.endTxn]
      cur := s.cur.advance s.cfg.page
      phase := if s.cur.rem = s.cur.segLen then .complete
        else .waitT0
          (if s.lat.code ∈ [encode .updateByte, encode .updateBlock, encode .updatePage] then .compare else .write) } := by
  obtain ⟨i, hcmd⟩ := h.command (by simp [hp])
  rw [← State.segWait_of_command hcmd]
  exact State.nextSegment_of_segOk (s := s.txnEnd) h.cfg (h.segOk_of_frame hp hu)

/-- Settles O41: END, then the next segment of the checked loop, or after a mismatch the wait of the write. -/
theorem segmentLoopAdvances : Obligations.SegmentLoopAdvances := by
  intro i s hinv
  have hend {u : FrameUse} (hi : i.space = .wire) (hop : s.frameOp u = encode i) (hp : s.phase = .frame u (.txnEnd false)) :
      exec i s = .next (s.txnEnd.afterFrame u) := by rw [exec_frameStep hi hop hp, frameStep_txnEnd hp]
  refine ⟨?_, fun hi hop hp hk => ?_⟩
  · rintro (⟨hi, hop, hp⟩ | ⟨hi, hop, hp, hk⟩)
    · rw [hend (by rcases hi with rfl | rfl <;> rfl) hop hp, State.afterFrame, hinv.nextSegment hp (.inl rfl)]
      rfl
    · rw [hend (by rcases hi with rfl | rfl <;> rfl) hop hp, State.afterFrame, State.txnEnd_cur, if_pos hk,
        hinv.nextSegment hp (.inr rfl)]
      rfl
  · rw [hend (by rcases hi with rfl | rfl <;> rfl) hop hp, State.afterFrame, State.txnEnd_cur, if_neg hk.ne]
    rfl

end Sys2Proof.Machine
end

section
/-! PROOFS. The whole run of WRITE_BLOCK (spec/43_write.md R240, R244, R245, R246, R350): the wait, the WREN frame and the WRITE
frame of a segment, and the loop over the segments. -/

namespace Sys2Proof.Machine

/-! ### Runs of some length -/

/-- Some number of steps lead from `s` to `t`. -/
def Reaches (s t : State) : Prop := ∃ k, runSteps k s = .next t

theorem Reaches.refl (s : State) : Reaches s s := ⟨0, rfl⟩

theorem Reaches.head {s q t : State} (h : step s = .next q) (hq : Reaches q t) : Reaches s t := by
  obtain ⟨k, hk⟩ := hq
  exact ⟨k + 1, (runSteps_succ h).trans hk⟩

/-- A run of `k` steps, whatever comes after it, then some more. -/
theorem Reaches.after {k : Nat} {s q t : State} (h : ∀ n, runSteps (n + k) s = runSteps n q) (hq : Reaches q t) :
    Reaches s t := by
  obtain ⟨n, hn⟩ := hq
  exact ⟨n + k, (h n).trans hn⟩

/-! ### The WREN frame of a segment (43_write.md R240) -/

/-- After events `l` on the wire, but for the phase, with the line high; the answers `rest` and the readings `ts` are left. -/
def State.wired (c : Cursor) (l : List WireEvent) (rest : List Answer) (ts : List Word) (s : State) : State :=
  { s with cs := .high, cur := c, trace := s.trace ++ l, env := { s.env with answers := rest, times := ts } }

/-- After the END of a frame of the bytes `tx`, answered by `rx`, but for the cursor and the phase; the answers `rest` are
left. -/
def State.framed (tx rx : List Byte) (rest : List Answer) (s : State) : State :=
  s.wired s.cur (frameEvents s.clockHz tx rx) rest s.env.times

/-- From CS(0) of the WREN frame to that of the WRITE frame. -/
theorem LoneWait.run_wrenFrame {i : Instr} {r : WaitRet} {p : Byte} {rest : List Answer} {s : State} (w : LoneWait i r s)
    (hp : s.phase = .frame .wrenSeq .csLow) (hans : s.env.answers = goodAnswers [p] ++ rest) (n : Nat) :
    runSteps (n + 5) s = runSteps n ((s.framed (frameBytes s.cfg .wren) [p] rest).goto (.frame .write .csLow)) := by
  have hopen : step s = .next (s.openFrame .wrenSeq) := by rw [step_frame w.valid w.sched hp, frameStep_csLow hp]
  have hop : (s.openFrame .wrenSeq).frameOp .wrenSeq = opWREN := wireOp_other s.cfg 0 (by decide) (by decide)
  have hframe := run_oneByteFrame (u := .wrenSeq) (rest := rest) (s := s.openFrame .wrenSeq) w.valid w.sched w.free
    (by simp [State.openFrame, w.chip]) hans rfl rfl (n + 1)
  rw [hop] at hframe
  have hend := step_txnEnd (u := .wrenSeq)
    (s := ((s.openFrame .wrenSeq).txnBegin.answered opWREN p rest).csHigh.goto (.frame .wrenSeq (.txnEnd false)))
    (by simpa [State.answered, State.openFrame] using w.valid) (by simpa [State.answered, State.openFrame] using w.sched) rfl
  rw [runSteps_succ hopen, hframe, runSteps_succ hend]
  simp [State.afterFrame, State.framed, State.wired, State.openFrame, State.answered, State.goto, State.txnEnd, State.csHigh,
    State.csLow, State.txnBegin, State.emit, w.chip, frameEvents, frameBytes]

/-! ### The data bytes of a WRITE frame (30_encoding.md R128) -/

/-- After the data bytes `tx` of a WRITE frame, answered by `rx`, but for the phase; the answers `rest` are left. -/
def State.sent (tx rx : List Byte) (rest : List Answer) (s : State) : State :=
  { s.exchanged tx rx rest with cur := { s.cur with i := s.cur.i + rx.length } }

theorem State.sent_nil {s : State} {rest : List Answer} (tx : List Byte) (h : s.env.answers = rest) : s.sent tx [] rest = s := by
  rw [State.sent, State.exchanged_nil _ h]
  rfl

theorem State.sent_cons (t r : Byte) (tx rx : List Byte) (mid rest : List Answer) (p : Phase) (s : State) :
    ((s.sent [t] [r] mid).goto p).sent tx rx rest = (s.sent (t :: tx) (r :: rx) rest).goto p := by
  simp [State.sent, State.exchanged, State.goto, Nat.add_assoc, Nat.add_comm 1]

/-- The program point of a WRITE frame's data phase: before the next byte, or the end. -/
def State.writePoint (s : State) : FramePoint := if s.cur.i < s.frameLen .write then .data else .csHigh false

section
variable {rest : List Answer} {s : State} (hv : s.cfg.valid = true) (hs : s.env.sched = []) (hchip : s.env.chip = none)
include hv hs hchip

theorem step_writeData {t r : Byte} (hsrc : s.srcByte (s.cur.k + s.cur.i) = some t) (hans : s.env.answers = ⟨r, true⟩ :: rest)
    (hp : s.phase = .frame .write .data) :
    step s = .next ((s.sent [t] [r] rest).goto (.frame .write (s.sent [t] [r] rest).writePoint)) := by
  rw [step_frame hv hs hp, frameStep_data hp, FrameUse.dataPhase, writeData, hsrc]
  dsimp only
  rw [xferChk_good hchip hans]
  rfl

theorem run_writeData {tx rx : List Byte} (hsrc : ∀ j b, tx[j]? = some b → s.srcByte (s.cur.k + (s.cur.i + j)) = some b)
    (hlen : rx.length = tx.length) (hleft : s.cur.i + tx.length = s.frameLen .write)
    (hans : s.env.answers = goodAnswers rx ++ rest) (hp : s.phase = .frame .write s.writePoint) (n : Nat) :
    runSteps (n + rx.length) s = runSteps n ((s.sent tx rx rest).goto (.frame .write (.csHigh false))) := by
  induction tx generalizing rx s with
  | nil =>
    obtain rfl : rx = [] := List.eq_nil_of_length_eq_zero hlen
    have hend : s.writePoint = .csHigh false := if_neg (by rw [← hleft]; exact Nat.lt_irrefl _)
    rw [State.sent_nil (rest := rest) _ hans, State.goto_self (hp.trans (by rw [hend]))]
    rfl
  | cons t tx ih =>
    obtain ⟨r, rx, rfl⟩ : ∃ r l, rx = r :: l := List.exists_cons_of_length_eq_add_one hlen
    have hi : s.cur.i < s.frameLen .write := by rw [← hleft, List.length_cons]; omega
    have hstep := step_writeData hv hs hchip (hsrc 0 t rfl) hans (hp.trans (by rw [State.writePoint, if_pos hi]))
    have hsrc' (j : Nat) (b : Byte) (hb : tx[j]? = some b) : s.srcByte (s.cur.k + (s.cur.i + 1 + j)) = some b := by
      rw [Nat.add_assoc s.cur.i, Nat.add_comm 1]
      exact hsrc (j + 1) b hb
    have hleft' : s.cur.i + 1 + tx.length = s.frameLen .write := by rw [← hleft, List.length_cons]; omega
    have hnext := ih (s := (s.sent [t] [r] (goodAnswers rx ++ rest)).goto
      (.frame .write (s.sent [t] [r] (goodAnswers rx ++ rest)).writePoint)) hv hs hchip hsrc' (Nat.succ.inj hlen) hleft' rfl rfl
    rw [State.sent_cons] at hnext
    exact (runSteps_succ hstep).trans hnext

/-- The data bytes and the end of the frame. -/
theorem run_writeDataEnd {tx rx : List Byte} (hsrc : ∀ j b, tx[j]? = some b → s.srcByte (s.cur.k + (s.cur.i + j)) = some b)
    (hlen : rx.length = tx.length) (hleft : s.cur.i + tx.length = s.frameLen .write)
    (hans : s.env.answers = goodAnswers rx ++ rest) (hp : s.phase = .frame .write s.writePoint) (n : Nat) :
    runSteps (n + 2 + rx.length) s =
      runSteps n (((s.sent tx rx rest).goto (.frame .write (.csHigh false))).csHigh.txnEnd.afterFrame .write) := by
  rw [run_writeData hv hs hchip hsrc hlen hleft hans hp]
  exact run_frameEnd (s := (s.sent tx rx rest).goto (.frame .write (.csHigh false))) hv hs rfl n

end

/-! ### The WRITE frame of a segment (30_encoding.md R128, 43_write.md R240) -/

/-- At the first data byte of a WRITE frame. -/
def State.writeBegun (s : State) : State := (s.setCur { s.cur with i := 0 }).goto (.frame .write .data)

theorem State.writeBegun_writePoint {s : State} (h : 0 < s.frameLen .write) : s.writeBegun.writePoint = .data := if_pos h

theorem enterAddr_write {j : Nat} {s : State} (hj : (s.frameAddr .write).length ≤ j) : s.enterAddr .write j = s.writeBegun :=
  State.enterAddr_data hj rfl

theorem length_frameAddr_write (s : State) : (s.frameAddr .write).length = s.cfg.nAddr :=
  addrBytes_length s.cfg (s.frameTarget .write)

theorem frameBytes_write (d : List Byte) (s : State) : frameBytes s.cfg (.write (s.frameTarget .write) d) =
    (s.frameOp .write :: s.frameAddr .write) ++ d := rfl

/-- After the END of the WRITE frame that sends the bytes `d` from the cursor on, answered by `rx`, but for the phase. -/
def State.blockWritten (d rx : List Byte) (rest : List Answer) (s : State) : State :=
  (s.framed (frameBytes s.cfg (.write (s.frameTarget .write) d)) rx rest).setCur { s.cur with i := d.length }

/-- The END of the WRITE frame, after its head and its data bytes. -/
theorem writeFrame_end {h d rx : List Byte} (mid rest : List Answer) (p : Phase) {s : State}
    (hh : h.length = 1 + s.cfg.nAddr) (hlen : rx.length = d.length) (hchip : s.env.chip = none) :
    (((s.headSent .write h mid).writeBegun.sent d rx rest).goto p).csHigh.txnEnd =
      (s.blockWritten d (h ++ rx) rest).goto p := by
  have hhead : (s.frameOp .write :: s.frameAddr .write).length = h.length := by
    rw [hh, List.length_cons, length_frameAddr_write, Nat.add_comm]
  rw [State.blockWritten, State.framed, State.wired, frameBytes_write, frameEvents_append _ _ _ hhead]
  simp [State.headSent, State.writeBegun, State.sent, State.exchanged, State.goto, State.csHigh, State.txnEnd, State.setCur,
    State.emit, hchip, hlen]

theorem run_writeFrame {i : Instr} {r : WaitRet} {d rx : List Byte} {rest : List Answer} {s : State} (w : LoneWait i r s)
    (hsrc : ∀ j b, d[j]? = some b → s.srcByte (s.cur.k + j) = some b) (hpos : 0 < d.length)
    (hlen : d.length = s.frameLen .write) (hrx : rx.length = 1 + s.cfg.nAddr + d.length)
    (hans : s.env.answers = goodAnswers rx ++ rest) (hp : s.phase = .frame .write .csLow) (n : Nat) :
    runSteps (n + 2 + rx.length + 2) s = runSteps n (s.blockWritten d rx rest).nextSegment := by
  obtain ⟨h, e, rfl, hh⟩ : ∃ h e, rx = h ++ e ∧ h.length = 1 + s.cfg.nAddr :=
    ⟨_, _, (List.take_append_drop (1 + s.cfg.nAddr) rx).symm, List.length_take_of_le (by omega)⟩
  have he : e.length = d.length := by rw [List.length_append] at hrx; omega
  rw [goodAnswers_append, List.append_assoc] at hans
  have hhead := run_frameHead w.valid w.sched w.chip w.free (by rw [hh, length_frameAddr_write]) hans hp
  have hbegin := enterAddr_write (s := s.headSent .write h (goodAnswers e ++ rest)) (length_frameAddr_write s).le
  have hsrc' : ∀ j b, d[j]? = some b → s.srcByte (s.cur.k + (0 + j)) = some b := by simpa using hsrc
  have hbytes := run_writeDataEnd (rest := rest) (s := (s.headSent .write h (goodAnswers e ++ rest)).writeBegun) w.valid w.sched
    w.chip hsrc' he ((Nat.zero_add _).trans hlen) rfl
    (congrArg _ (State.writeBegun_writePoint (s := s.headSent .write h (goodAnswers e ++ rest)) (hpos.trans_eq hlen)).symm) n
  rw [List.length_append, Nat.add_comm h.length, ← Nat.add_assoc, hhead, length_frameAddr_write, hbegin, hbytes,
    writeFrame_end _ _ _ hh he w.chip, State.afterFrame_goto, State.afterFrame]

/-! ### A segment of WRITE_BLOCK (43_write.md R240) -/

/-- The first reading of a wait that the time source has ready; the readings `ts` are left. -/
theorem State.startWait_ready {r : WaitRet} {s : State} {t : Word} {ts : List Word} (h : s.env.times = t :: ts) :
    s.startWait r = ((s.timed t ts).setCur { s.cur with waitStart := t }).goto (.frame (.poll r) .csLow) := by
  obtain ⟨hvalue, hnow⟩ := now_ready h
  rw [State.startWait, hvalue, hnow]

/-- The BUF bytes of the current segment. -/
def State.segmentBytes (s : State) : List Byte := (List.range s.cur.segLen).map fun j => s.bufByte (s.cur.off + j)

theorem length_segmentBytes (s : State) : s.segmentBytes.length = s.cur.segLen := by simp [State.segmentBytes]

/-- WRITE_BLOCK before the wait of a segment, which is checked and of which nothing is written yet. -/
structure AtSegment (s : State) : Prop extends LoneWait .writeBlock .write s where
  seg : s.segOk
  start : s.cur.k = 0

theorem AtSegment.command {s : State} (h : AtSegment s) : s.command = some .writeBlock := (hostInstr_decodes h.instr).1

theorem AtSegment.srcByte {s : State} (h : AtSegment s) {j : Nat} {b : Byte} (hb : s.segmentBytes[j]? = some b) :
    s.srcByte (s.cur.k + j) = some b := by
  obtain ⟨hj, rfl⟩ := List.getElem?_eq_some_iff.1 hb
  obtain ⟨-, hle, -, -, -, hbuf⟩ := h.seg
  have hcmd : isByteCommand s.command = false := by rw [h.command]; rfl
  have hfits := hbuf hcmd
  simp only [State.segmentBytes, List.length_map, List.length_range] at hj
  rw [h.start, Nat.zero_add, srcByte_buf hcmd (by omega)]
  simp [State.segmentBytes]

/-- What the environment gives a segment fits it, and its first poll is ready. -/
def SegmentInput.Fits (cfg : Config) (g : Segment) (x : SegmentInput) : Prop :=
  x.writeRx.length = 1 + cfg.nAddr + g.len ∧ x.status.getLsbD 0 = false

/-- Before the WRITE frame of a segment, after its wait and its WREN frame. -/
def State.writeEnabled (x : SegmentInput) (rest : List Answer) (ts : List Word) (s : State) : State :=
  (s.wired { s.cur with i := 0, waitStart := x.time, sr := x.status }
    (.time x.time :: (frameEvents s.clockHz (frameBytes s.cfg .rdsr) [x.pollRx, x.status] ++
      frameEvents s.clockHz (frameBytes s.cfg .wren) [x.wrenRx])) rest ts).goto (.frame .write .csLow)

/-- The cursor after a written segment. -/
def Cursor.afterWrite (x : SegmentInput) (c : Cursor) : Cursor := { c with i := c.segLen, waitStart := x.time, sr := x.status }

section
variable {s : State} (h : AtSegment s) {x : SegmentInput} {rest : List Answer} {ts : List Word}
include h

/-- The wait, whose first poll is ready, and the WREN frame. -/
theorem AtSegment.run_writeEnabled (hx : x.Fits s.cfg s.cur.segment) (htimes : s.env.times = x.time :: ts)
    (hans : s.env.answers = goodAnswers [x.pollRx, x.status] ++ (goodAnswers [x.wrenRx] ++ rest)) (n : Nat) :
    runSteps (n + (5 + 6)) (s.startWait .write) = runSteps n (s.writeEnabled x rest ts) := by
  let q := ((s.timed x.time ts).setCur { s.cur with waitStart := x.time }).goto (.frame (.poll .write) .csLow)
  have hwait : LoneWait .writeBlock .write q := ⟨h.valid, h.instr, rfl, h.sched, h.free, h.chip⟩
  have hpolled := hwait.statusRead x.pollRx x.status (goodAnswers [x.wrenRx] ++ rest) (.frame .wrenSeq .csLow)
  have hpoll := hwait.run_readyFrame hx.2 hans rfl (n + 5)
  have hwren := hpolled.run_wrenFrame rfl rfl n
  rw [← Nat.add_assoc, State.startWait_ready htimes, hpoll, WaitRet.use, hwren]
  simp [q, State.writeEnabled, State.wired, State.framed, State.statusRead, State.timed, State.setCur, State.goto, State.emit]

theorem AtSegment.blockWritten_writeEnabled (mid : List Answer) :
    (s.writeEnabled x mid ts).blockWritten s.segmentBytes x.writeRx rest =
      (s.wired (s.cur.afterWrite x) (s.segmentEvents s.cur.segment x) rest ts).goto (.frame .write .csLow) := by
  rw [State.blockWritten, length_segmentBytes]
  simp [State.writeEnabled, State.framed, State.wired, State.setCur, State.goto, State.frameTarget, State.segmentEvents,
    State.segmentBytes, Cursor.segment, Cursor.afterWrite, h.start]

/-- The WRITE frame, of which nothing is written yet. -/
theorem AtSegment.run_write (hx : x.Fits s.cfg s.cur.segment) (n : Nat) :
    runSteps (n + (2 + x.writeRx.length + 2)) (s.writeEnabled x (goodAnswers x.writeRx ++ rest) ts) =
      runSteps n (s.wired (s.cur.afterWrite x) (s.segmentEvents s.cur.segment x) rest ts).nextSegment := by
  have hwait : LoneWait .writeBlock .write (s.writeEnabled x (goodAnswers x.writeRx ++ rest) ts) :=
    ⟨h.valid, h.instr, rfl, h.sched, h.free, h.chip⟩
  have hlen : s.segmentBytes.length = s.cur.segLen - s.cur.k := by rw [length_segmentBytes, h.start, Nat.sub_zero]
  have hpos : 0 < s.segmentBytes.length := by rw [length_segmentBytes]; exact h.seg.pos
  have hrx : x.writeRx.length = 1 + s.cfg.nAddr + s.segmentBytes.length := by rw [length_segmentBytes]; exact hx.1
  rw [← Nat.add_assoc, ← Nat.add_assoc, run_writeFrame hwait (fun j b hb => h.srcByte hb) hpos hlen hrx rfl rfl n,
    h.blockWritten_writeEnabled]
  rfl

/-- The wait, the WREN frame and the WRITE frame (43_write.md R240). -/
theorem AtSegment.reaches_nextSegment (hx : x.Fits s.cfg s.cur.segment) (htimes : s.env.times = x.time :: ts)
    (hans : s.env.answers = goodAnswers x.rx ++ rest) {t : State}
    (ht : Reaches (s.wired (s.cur.afterWrite x) (s.segmentEvents s.cur.segment x) rest ts).nextSegment t) :
    Reaches (s.startWait .write) t := by
  have hframes : goodAnswers x.rx ++ rest =
      goodAnswers [x.pollRx, x.status] ++ (goodAnswers [x.wrenRx] ++ (goodAnswers x.writeRx ++ rest)) := by
    simp [goodAnswers, SegmentInput.rx]
  exact .after (h.run_writeEnabled hx htimes (hans.trans hframes)) (.after (h.run_write hx) ht)

end

/-! ### The loop over the segments of WRITE_BLOCK (43_write.md R244, R245) -/

theorem Cursor.SameRange.advance {P : Nat} {c d : Cursor} (h : c.SameRange d) : (c.advance P).SameRange (d.advance P) := by
  rw [Cursor.SameRange, h]
  rfl

/-- The list of a cursor looks at its range alone. -/
theorem segmentsFrom_sameRange {P fuel : Nat} {c d : Cursor} (h : c.SameRange d) :
    segmentsFrom P fuel d = segmentsFrom P fuel c := by
  induction fuel generalizing c d with
  | zero => rfl
  | succ fuel ih =>
    have hrem : d.rem = c.rem := by rw [h]
    have hseg : d.segment = c.segment := by rw [h]; rfl
    by_cases h0 : c.rem = 0
    · rw [segmentsFrom_nil h0, segmentsFrom_nil (hrem.trans h0)]
    · rw [segmentsFrom_cons h0, segmentsFrom_cons (hrem.trans_ne h0), hseg, ih h.advance]

theorem State.wired_wired (c c' : Cursor) (l l' : List WireEvent) (rest rest' : List Answer) (ts ts' : List Word) (s : State) :
    (s.wired c l rest ts).wired c' l' rest' ts' = s.wired c' (l ++ l') rest' ts' := by
  simp only [State.wired, List.append_assoc]

section
variable {s : State} (h : AtSegment s) (x : SegmentInput) (l : List WireEvent) (rest : List Answer) (ts : List Word)
include h

theorem AtSegment.nextSegment : (s.wired (s.cur.afterWrite x) l rest ts).nextSegment =
    (s.wired ((s.cur.afterWrite x).advance s.cfg.page) l rest ts).goto
      (if s.cur.rem = s.cur.segLen then .complete else .waitT0 .write) := by
  have hwait : s.segWait = .write := by rw [State.segWait, h.command]; rfl
  rw [← hwait]
  exact State.nextSegment_of_segOk (s := s.wired (s.cur.afterWrite x) l rest ts) h.valid h.seg

theorem AtSegment.next (hrem : s.cur.rem ≠ s.cur.segLen) :
    AtSegment (s.wired ((s.cur.afterWrite x).advance s.cfg.page) l rest ts) :=
  ⟨⟨h.valid, h.instr, rfl, h.sched, h.free, h.chip⟩,
    State.segOk_advance (s := s.wired (s.cur.afterWrite x) l rest ts) h.valid h.seg
      (Nat.sub_ne_zero_of_lt (h.seg.le.lt_of_ne' hrem)), rfl⟩

theorem AtSegment.step_waitT0 : step (s.goto (.waitT0 .write)) = .next (s.startWait .write) :=
  (step_command (s := s.goto (.waitT0 .write)) h.valid h.sched nofun nofun h.instr).trans (exec_waitT0 (w := .write) rfl rfl)

theorem AtSegment.step_complete (c : Cursor) :
    step ((s.wired c l rest ts).goto .complete) = .next ((s.wired c l rest ts).succeed s.lat.len) :=
  (step_command (s := (s.wired c l rest ts).goto .complete) h.valid h.sched nofun nofun h.instr).trans
    (exec_blockInstr_complete rfl (by decide))

end

/-- Every segment in order, then the completion. -/
theorem AtSegment.run_segments {fuel : Nat} {s : State} (h : AtSegment s) (hfuel : s.cur.rem ≤ fuel) {xs : List SegmentInput}
    {rest : List Answer} {ts : List Word}
    (hxs : List.Forall₂ (SegmentInput.Fits s.cfg) (segmentsFrom s.cfg.page fuel s.cur) xs)
    (htimes : s.env.times = xs.map SegmentInput.time ++ ts)
    (hans : s.env.answers = goodAnswers (xs.flatMap SegmentInput.rx) ++ rest) :
    ∃ c, Reaches (s.startWait .write)
      ((s.wired c (List.zipWith s.segmentEvents (segmentsFrom s.cfg.page fuel s.cur) xs).flatten rest ts).succeed s.lat.len) := by
  induction fuel generalizing s xs with
  | zero => exact absurd (h.seg.pos.trans h.seg.le) (by omega)
  | succ fuel ih =>
    have hpos := h.seg.pos
    have hle := h.seg.le
    rw [segmentsFrom_cons (by omega)] at hxs ⊢
    obtain ⟨x, ys, hx, hys, rfl⟩ := List.forall₂_cons_left_iff.1 hxs
    rw [List.flatMap_cons, goodAnswers_append, List.append_assoc] at hans
    rw [List.zipWith_cons_cons, List.flatten_cons]
    let l := s.segmentEvents s.cur.segment x
    let q := s.wired ((s.cur.afterWrite x).advance s.cfg.page) l (goodAnswers (ys.flatMap SegmentInput.rx) ++ rest)
      (ys.map SegmentInput.time ++ ts)
    by_cases hrem : s.cur.rem = s.cur.segLen
    · rw [segmentsFrom_nil (Nat.sub_eq_zero_of_le hrem.le)] at hys ⊢
      obtain rfl := List.forall₂_nil_left_iff.1 hys
      refine ⟨q.cur, h.reaches_nextSegment hx htimes hans ?_⟩
      rw [h.nextSegment, if_pos hrem, List.zipWith_nil_left, List.flatten_nil, List.append_nil]
      exact .head (h.step_complete l rest ts q.cur) (.refl _)
    · have hq : AtSegment q := h.next x l _ _ hrem
      have hsame : segmentsFrom s.cfg.page fuel q.cur = segmentsFrom s.cfg.page fuel (s.cur.advance s.cfg.page) :=
        segmentsFrom_sameRange (Cursor.SameRange.advance (by rfl))
      obtain ⟨c, hc⟩ := ih hq (show s.cur.rem - s.cur.segLen ≤ fuel by omega) (hsame ▸ hys) rfl rfl
      refine ⟨c, h.reaches_nextSegment hx htimes hans ?_⟩
      rw [h.nextSegment, if_neg hrem, ← hsame, ← State.wired_wired]
      exact .head hq.step_waitT0 hc

/-! ### The whole run of WRITE_BLOCK (43_write.md R245, R246, R350) -/

/-- WRITE_BLOCK at its first segment, but for the first reading and the phase (60_exceptions.md R301, 43_write.md R244). -/
def State.blockStarted (s : State) : State :=
  ((s.setSched []).start 0x31).firstSegment s.regs.addr.toNat (firstSegLen s.cfg s.regs.addr.toNat s.regs.len.toNat)
    s.regs.len.toNat

section
variable {s : State} (hv : s.cfg.valid = true) (hchip : s.env.chip = none) (hpos : 1 ≤ s.regs.len.toNat)
  (hrange : s.regs.addr.toNat + s.regs.len.toNat ≤ s.cfg.cap) (hbuf : s.regs.len.toNat ≤ s.cfg.bufBytes)
include hv hchip hpos hrange hbuf

theorem atSegment_blockStarted (hfree : s.env.busFree = true) : AtSegment s.blockStarted :=
  ⟨⟨hv, rfl, rfl, rfl, hfree, hchip⟩,
    blockSegment_ok (s := (s.setSched []).start 0x31) hv (decide_eq_true hrange) hpos hbuf, rfl⟩

/-- From the CMD write to the first poll. -/
theorem step_writeBlock (hp : s.phase = .idle) (hinit : s.initDone = true)
    (hs : s.env.sched = [.host (.write s.cfg.hostBase (lanesOf 0x31))]) : step s = .next (s.blockStarted.startWait .write) := by
  let p := (s.setSched []).start 0x31
  have hcheck : pageCheck p.cfg p.cAddr (firstSegLen p.cfg p.cAddr p.cLen) = true :=
    (blockSegment_ok (s := p) hv (decide_eq_true hrange) hpos hbuf).pageCheck
  have hkeep : p.env.keepBefore = p.env := (Env.noChip (e := p.env) hchip s.cfg []).1
  have hwait : p.segWait = .write := rfl
  rw [step_cmd hv hs, cmdStep_start (i := .writeBlock) (s := s.setSched []) hp rfl,
    exec_blockInstr_check (s := p) rfl hinit hbuf (Nat.ne_of_gt hpos) (by decide) hrange, State.beginSegments_fits hcheck, hkeep,
    hwait]
  rfl

end

/-- Settles O57: the CMD write, and from the first wait on the segments, one after another. -/
theorem writeBlockRun : Obligations.WriteBlockRun := by
  intro s a n xs ts rest hv hp hinit hfree hchip hs ha hn hpos hrange hbuf hxs htimes hans
  subst ha hn
  have hsame : segmentsFrom s.cfg.page s.regs.len.toNat s.blockStarted.cur = segments s.cfg s.regs.addr.toNat s.regs.len.toNat :=
    segmentsFrom_sameRange (by rfl)
  obtain ⟨c, k, hk⟩ := (atSegment_blockStarted hv hchip hpos hrange hbuf hfree).run_segments (fuel := s.regs.len.toNat) le_rfl
    (hsame ▸ hxs) htimes hans
  have hstart := step_writeBlock hv hchip hpos hrange hbuf hp hinit hs
  refine ⟨k + 1, _, (runSteps_succ hstart).trans hk, ?_, rfl, rfl, rfl, rfl, rfl, rfl, rfl⟩
  rw [← hsame]
  rfl

end Sys2Proof.Machine
end

section
/-! PROOFS. The data phase of a compare frame (spec/44_update.md R270): a byte that matches, the first that does not, and a failed
transfer. -/

namespace Sys2Proof.Machine

theorem State.compareByte_same {u : FrameUse} {b : Byte} {s : State} : s.compareByte u b b = s.nextData u := if_pos rfl

theorem State.compareByte_differs {u : FrameUse} {new rx : Byte} {s : State} (h : rx ≠ new) :
    s.compareByte u new rx = (s.setCur { s.cur with k := s.cur.i }).goto (.frame u (.csHigh false)) := if_neg h

/-- A received byte of a compare frame whose new byte exists. -/
theorem readData_compare {new : Byte} {s : State} (h : s.srcByte s.cur.i = some new) :
    readData .compare s = .next (s.xferChk .compare s.cfg.dummyTx fun rx t => t.compareByte .compare new rx) := by
  simp only [readData, h]

/-- The new byte at an index of an update command's segment: WDATA's byte, or one of BUF (44_update.md R271 to R273). -/
theorem srcByte_update {j : Nat} {new : Byte} {s : State}
    (h : s.lat.code = encode .updateByte ∧ new = s.lat.data ∨
      (s.lat.code = encode .updateBlock ∨ s.lat.code = encode .updatePage) ∧ s.cur.off + j < s.cfg.bufBytes ∧
        new = s.bufByte (s.cur.off + j)) : s.srcByte j = some new := by
  rcases h with ⟨hcode, rfl⟩ | ⟨hcode, hlt, rfl⟩
  · exact srcByte_byte (by rw [command_of_code hcode rfl]; rfl) j
  · refine srcByte_buf ?_ hlt
    rcases hcode with hcode | hcode <;> rw [command_of_code hcode rfl] <;> rfl

/-- Settles O39: a failed transfer closes the frame, a byte that differs ends it at its index, and one that matches goes on. -/
theorem compareEndsAtTheFirstMismatch : Obligations.CompareEndsAtTheFirstMismatch := by
  intro i s new hi hop hp hnew
  have hexec : exec i s = readData .compare s := by
    rw [exec_frameStep (by rcases hi with rfl | rfl <;> rfl) hop hp, frameStep_data hp]
    rfl
  rw [hexec, readData_compare (srcByte_update hnew)]
  refine ⟨_, rfl, ?_⟩
  cases hok : s.xferAnswer.ok with
  | false =>
    rw [State.xferChk_failed hok]
    exact ⟨rfl, by simp [hok], rfl, fun _ => ⟨rfl, rfl⟩, nofun, nofun⟩
  | true =>
    rw [State.xferChk_ok hok]
    by_cases hrx : s.xferAnswer.rx = new
    · subst hrx
      rw [State.compareByte_same]
      exact ⟨rfl, by simp [State.nextData, hok], rfl, nofun, fun _ hne => absurd rfl hne, fun _ _ => ⟨rfl, rfl⟩⟩
    · rw [State.compareByte_differs hrx]
      exact ⟨rfl, by simp [hok], rfl, nofun, fun _ _ => ⟨rfl, rfl⟩, fun _ h => absurd h hrx⟩

end Sys2Proof.Machine
end

section
/-! PROOFS. The whole run of an update command whose new bytes all equal the bytes read (spec/44_update.md R270 to R274): the wait and
the compare frame of a segment, and the loop over the segments. -/

namespace Sys2Proof.Machine

/-! ### The data bytes of an equal compare frame (44_update.md R270) -/

/-- The program point of a compare frame's data phase as long as every byte matches: before the next byte, or the end. -/
def State.comparePoint (s : State) : FramePoint := if s.cur.i < s.cur.segLen then .data else .csHigh false

section
variable {d : List Byte} {rest : List Answer} {s : State} (hv : s.cfg.valid = true) (hs : s.env.sched = [])
  (hchip : s.env.chip = none)
include hv hs hchip

theorem step_compareData {b : Byte} (hsrc : s.srcByte s.cur.i = some b) (hans : s.env.answers = ⟨b, true⟩ :: rest)
    (hp : s.phase = .frame .compare .data) :
    step s = .next ((s.sent [s.cfg.dummyTx] [b] rest).goto (.frame .compare (s.sent [s.cfg.dummyTx] [b] rest).comparePoint)) := by
  rw [step_frame hv hs hp, frameStep_data hp, FrameUse.dataPhase, readData_compare hsrc, xferChk_good hchip hans,
    State.compareByte_same]
  rfl

theorem run_compareData (hsrc : ∀ j b, d[j]? = some b → s.srcByte (s.cur.i + j) = some b)
    (hleft : s.cur.i + d.length = s.cur.segLen) (hans : s.env.answers = goodAnswers d ++ rest)
    (hp : s.phase = .frame .compare s.comparePoint) (n : Nat) :
    runSteps (n + d.length) s =
      runSteps n ((s.sent (List.replicate d.length s.cfg.dummyTx) d rest).goto (.frame .compare (.csHigh false))) := by
  induction d generalizing s with
  | nil =>
    have hend : s.comparePoint = .csHigh false := if_neg (by rw [← hleft]; exact Nat.lt_irrefl _)
    rw [State.sent_nil (rest := rest) _ hans, State.goto_self (hp.trans (by rw [hend]))]
    rfl
  | cons b d ih =>
    have hi : s.cur.i < s.cur.segLen := by rw [← hleft, List.length_cons]; omega
    have hstep := step_compareData hv hs hchip (hsrc 0 b rfl) hans (hp.trans (by rw [State.comparePoint, if_pos hi]))
    have hsrc' (j : Nat) (c : Byte) (hc : d[j]? = some c) : s.srcByte (s.cur.i + 1 + j) = some c := by
      rw [Nat.add_assoc, Nat.add_comm 1]
      exact hsrc (j + 1) c hc
    have hleft' : s.cur.i + 1 + d.length = s.cur.segLen := by rw [← hleft, List.length_cons]; omega
    have hnext := ih (s := (s.sent [s.cfg.dummyTx] [b] (goodAnswers d ++ rest)).goto
      (.frame .compare (s.sent [s.cfg.dummyTx] [b] (goodAnswers d ++ rest)).comparePoint)) hv hs hchip hsrc' hleft' rfl rfl
    refine (runSteps_succ hstep).trans (hnext.trans (congrArg (runSteps n) ?_))
    exact State.sent_cons s.cfg.dummyTx b (List.replicate d.length s.cfg.dummyTx) d _ rest _ s

end

/-! ### The compare frame of an equal segment (30_encoding.md R127, 44_update.md R270) -/

/-- At the first data byte of a compare frame, with no mismatch found. -/
def State.compareBegun (s : State) : State :=
  (s.setCur { s.cur with i := 0, k := s.cur.segLen }).goto (.frame .compare .data)

theorem State.compareBegun_comparePoint {s : State} (h : 0 < s.cur.segLen) : s.compareBegun.comparePoint = .data := if_pos h

theorem enterAddr_compare {j : Nat} {s : State} (hj : (s.frameAddr .compare).length ≤ j) :
    s.enterAddr .compare j = s.compareBegun := State.enterAddr_data hj rfl

theorem length_frameAddr_compare (s : State) : (s.frameAddr .compare).length = s.cfg.nAddr :=
  addrBytes_length s.cfg s.cur.segAddr

theorem frameBytes_compare (n : Nat) (s : State) : frameBytes s.cfg (.read s.cur.segAddr n) =
    (s.frameOp .compare :: s.frameAddr .compare) ++ List.replicate n s.cfg.dummyTx := rfl

/-- After the END of a compare frame of `n` bytes that all match, answered by `rx`, but for the phase. -/
def State.compared (n : Nat) (rx : List Byte) (rest : List Answer) (s : State) : State :=
  (s.framed (frameBytes s.cfg (.read s.cur.segAddr n)) rx rest).setCur { s.cur with i := n, k := s.cur.segLen }

/-- The END of an equal compare frame, after its head and its data bytes. -/
theorem compareFrame_end {h d : List Byte} (mid rest : List Answer) (p : Phase) {s : State}
    (hh : h.length = 1 + s.cfg.nAddr) (hchip : s.env.chip = none) :
    (((s.headSent .compare h mid).compareBegun.sent (List.replicate d.length s.cfg.dummyTx) d rest).goto p).csHigh.txnEnd =
      (s.compared d.length (h ++ d) rest).goto p := by
  have hhead : (s.frameOp .compare :: s.frameAddr .compare).length = h.length := by
    rw [hh, List.length_cons, length_frameAddr_compare, Nat.add_comm]
  rw [State.compared, State.framed, State.wired, frameBytes_compare, frameEvents_append _ _ _ hhead]
  simp [State.headSent, State.compareBegun, State.sent, State.exchanged, State.goto, State.csHigh, State.txnEnd, State.setCur,
    State.emit, hchip]

/-- From CS(0) to the next segment. -/
theorem run_compareFrame {i : Instr} {r : WaitRet} {h d : List Byte} {rest : List Answer} {s : State} (w : LoneWait i r s)
    (hsrc : ∀ j b, d[j]? = some b → s.srcByte j = some b) (hpos : 0 < d.length) (hlen : d.length = s.cur.segLen)
    (hh : h.length = 1 + s.cfg.nAddr) (hans : s.env.answers = goodAnswers (h ++ d) ++ rest)
    (hp : s.phase = .frame .compare .csLow) (n : Nat) :
    runSteps (n + 2 + d.length + h.length + 2) s = runSteps n (s.compared d.length (h ++ d) rest).nextSegment := by
  rw [goodAnswers_append, List.append_assoc] at hans
  let q := s.headSent .compare h (goodAnswers d ++ rest)
  have hhead := run_frameHead w.valid w.sched w.chip w.free (by rw [hh, length_frameAddr_compare]) hans hp
  have hbegin := enterAddr_compare (s := q) (length_frameAddr_compare s).le
  have hsrc' : ∀ j b, d[j]? = some b → s.srcByte (0 + j) = some b := by simpa using hsrc
  have hbytes := run_compareData (rest := rest) (s := q.compareBegun) w.valid w.sched w.chip hsrc' ((Nat.zero_add _).trans hlen) rfl
    (congrArg _ (State.compareBegun_comparePoint (s := q) (hpos.trans_eq hlen)).symm)
  have hend := run_frameEnd (s := (q.compareBegun.sent (List.replicate d.length s.cfg.dummyTx) d rest).goto
    (.frame .compare (.csHigh false))) w.valid w.sched rfl n
  rw [hhead, length_frameAddr_compare, hbegin]
  refine (hbytes _).trans (hend.trans ?_)
  rw [compareFrame_end _ _ _ hh w.chip, State.afterFrame_goto]
  exact congrArg (runSteps n) (if_pos rfl)

/-! ### A segment of an update command (44_update.md R270) -/

/-- The update commands (44_update.md R271 to R273). -/
abbrev updateInstrs : List Instr := [.updateByte, .updateBlock, .updatePage]

theorem isByteCommand_update {i : Instr} (hi : i ∈ updateInstrs) : isByteCommand (some i) = decide (i = .updateByte) := by
  revert i
  decide

/-- The update command `i` before the wait of a segment, which is checked. -/
structure AtCompare (i : Instr) (s : State) : Prop extends LoneWait i .compare s where
  update : i ∈ updateInstrs
  seg : s.segOk
  data : s.lat.data = s.regs.wdata

theorem waitsFor_update {i : Instr} (hi : i ∈ updateInstrs) : waitsFor i .compare = true := by
  revert i
  decide

theorem length_newBytes (i : Instr) (g : Segment) (s : State) : (s.newBytes i g).length = g.len := by simp [State.newBytes]

/-- What the environment gives an equal segment fits it, and its poll is ready. -/
def CompareInput.Fits (cfg : Config) (x : CompareInput) : Prop :=
  x.head.length = 1 + cfg.nAddr ∧ x.status.getLsbD 0 = false

/-- Before the compare frame of a segment, after its wait. -/
def State.readyToCompare (x : CompareInput) (rest : List Answer) (ts : List Word) (s : State) : State :=
  (s.wired { s.cur with i := 0, waitStart := x.time, sr := x.status }
    (.time x.time :: frameEvents s.clockHz (frameBytes s.cfg .rdsr) [x.pollRx, x.status]) rest ts).goto (.frame .compare .csLow)

/-- The cursor after an equal segment. -/
def Cursor.afterCompare (x : CompareInput) (c : Cursor) : Cursor :=
  { c with i := c.segLen, k := c.segLen, waitStart := x.time, sr := x.status }

theorem State.readyToCompare_compared (i : Instr) (x : CompareInput) (mid rest : List Answer) (ts : List Word) (s : State) :
    (s.readyToCompare x mid ts).compared s.cur.segLen (x.head ++ s.newBytes i s.cur.segment) rest =
      (s.wired (s.cur.afterCompare x) (s.compareEvents i s.cur.segment x) rest ts).goto (.frame .compare .csLow) := by
  simp [State.readyToCompare, State.compared, State.framed, State.wired, State.setCur, State.goto, State.compareEvents,
    Cursor.segment, Cursor.afterCompare]

/-- The bytes an update command reports (44_update.md R271 to R273). -/
def State.updateLen (i : Instr) (s : State) : Nat := if i = .updateByte then 1 else s.cLen

theorem exec_update_complete {i : Instr} {s : State} (hi : i ∈ updateInstrs) (hp : s.phase = .complete) :
    exec i s = .next (s.succeed (BitVec.ofNat 32 (s.updateLen i))) := by
  obtain ⟨hbyte, hother⟩ := segmentCommandsComplete i s hp
  have hlen : BitVec.ofNat 32 s.cLen = s.lat.len := BitVec.ofNat_toNat 32 s.lat.len
  simp only [List.mem_cons, List.not_mem_nil, or_false] at hi
  rcases hi with rfl | rfl | rfl
  · exact hbyte (by decide)
  · rw [hother (by decide), ← hlen]
    rfl
  · rw [hother (by decide), ← hlen]
    rfl

section
variable {i : Instr} {s : State} (h : AtCompare i s)
include h

theorem AtCompare.command : s.command = some i := (hostInstr_decodes h.instr).1

theorem AtCompare.segWait : s.segWait = .compare := by
  rw [State.segWait, h.command]
  exact if_pos h.waits

theorem AtCompare.isByteCommand : isByteCommand s.command = decide (i = .updateByte) := by
  rw [h.command]
  exact isByteCommand_update h.update

theorem AtCompare.srcByte {j : Nat} {b : Byte} (hb : (s.newBytes i s.cur.segment)[j]? = some b) : s.srcByte j = some b := by
  obtain ⟨hj, rfl⟩ := List.getElem?_eq_some_iff.1 hb
  obtain ⟨-, hle, -, -, -, hbuf⟩ := h.seg
  have hcmd := h.isByteCommand
  simp only [State.newBytes, List.getElem_map, List.getElem_range]
  by_cases hbyte : i = .updateByte
  · rw [if_pos hbyte, ← h.data, srcByte_byte (by rw [hcmd, decide_eq_true hbyte])]
  · rw [decide_eq_false hbyte] at hcmd
    have hfits := hbuf hcmd
    have hlt : j < s.cur.segLen := hj.trans_eq (length_newBytes i s.cur.segment s)
    rw [if_neg hbyte, srcByte_buf hcmd (by omega)]
    rfl

section
variable {x : CompareInput} {rest : List Answer} {ts : List Word}

/-- The wait, whose first poll is ready. -/
theorem AtCompare.run_ready (hx : x.Fits s.cfg) (htimes : s.env.times = x.time :: ts)
    (hans : s.env.answers = goodAnswers [x.pollRx, x.status] ++ rest) (n : Nat) :
    runSteps (n + 6) (s.startWait .compare) = runSteps n (s.readyToCompare x rest ts) := by
  let q := ((s.timed x.time ts).setCur { s.cur with waitStart := x.time }).goto (.frame (.poll .compare) .csLow)
  have hwait : LoneWait i .compare q := ⟨h.valid, h.instr, h.waits, h.sched, h.free, h.chip⟩
  rw [State.startWait_ready htimes, hwait.run_readyFrame hx.2 hans rfl n]
  simp [q, WaitRet.use, State.readyToCompare, State.wired, State.statusRead, State.timed, State.setCur, State.goto, State.emit]

/-- The compare frame, all of whose bytes match. -/
theorem AtCompare.run_compare (hx : x.Fits s.cfg) (n : Nat) :
    runSteps (n + (2 + s.cur.segLen + x.head.length + 2))
        (s.readyToCompare x (goodAnswers (x.head ++ s.newBytes i s.cur.segment) ++ rest) ts) =
      runSteps n (s.wired (s.cur.afterCompare x) (s.compareEvents i s.cur.segment x) rest ts).nextSegment := by
  have hd : (s.newBytes i s.cur.segment).length = s.cur.segLen := length_newBytes i s.cur.segment s
  have hwait : LoneWait i .compare (s.readyToCompare x (goodAnswers (x.head ++ s.newBytes i s.cur.segment) ++ rest) ts) :=
    ⟨h.valid, h.instr, h.waits, h.sched, h.free, h.chip⟩
  have hframe := run_compareFrame hwait (fun j b hb => h.srcByte hb) (h.seg.pos.trans_eq hd.symm) hd hx.1 rfl rfl n
  rw [hd, State.readyToCompare_compared] at hframe
  rw [← Nat.add_assoc, ← Nat.add_assoc, ← Nat.add_assoc]
  exact hframe

/-- The wait and the compare frame (44_update.md R270). -/
theorem AtCompare.reaches_nextSegment (hx : x.Fits s.cfg) (htimes : s.env.times = x.time :: ts)
    (hans : s.env.answers = goodAnswers (s.compareRx i s.cur.segment x) ++ rest) {t : State}
    (ht : Reaches (s.wired (s.cur.afterCompare x) (s.compareEvents i s.cur.segment x) rest ts).nextSegment t) :
    Reaches (s.startWait .compare) t := by
  rw [State.compareRx, goodAnswers_append, List.append_assoc] at hans
  exact .after (h.run_ready hx htimes hans) (.after (h.run_compare hx) ht)

end

/-! ### The loop over the segments of an update command (43_write.md R244, 44_update.md R273) -/

section
variable (x : CompareInput) (l : List WireEvent) (rest : List Answer) (ts : List Word)

theorem AtCompare.nextSegment : (s.wired (s.cur.afterCompare x) l rest ts).nextSegment =
    (s.wired ((s.cur.afterCompare x).advance s.cfg.page) l rest ts).goto
      (if s.cur.rem = s.cur.segLen then .complete else .waitT0 .compare) := by
  rw [← h.segWait]
  exact State.nextSegment_of_segOk (s := s.wired (s.cur.afterCompare x) l rest ts) h.valid h.seg

theorem AtCompare.next (hrem : s.cur.rem ≠ s.cur.segLen) :
    AtCompare i (s.wired ((s.cur.afterCompare x).advance s.cfg.page) l rest ts) where
  valid := h.valid
  instr := h.instr
  waits := h.waits
  sched := h.sched
  free := h.free
  chip := h.chip
  update := h.update
  seg := State.segOk_advance (s := s.wired (s.cur.afterCompare x) l rest ts) h.valid h.seg
    (Nat.sub_ne_zero_of_lt (h.seg.le.lt_of_ne' hrem))
  data := h.data

theorem AtCompare.step_waitT0 : step (s.goto (.waitT0 .compare)) = .next (s.startWait .compare) :=
  (step_command (s := s.goto (.waitT0 .compare)) h.valid h.sched nofun nofun h.instr).trans (exec_waitT0 h.waits rfl)

theorem AtCompare.step_complete (c : Cursor) : step ((s.wired c l rest ts).goto .complete) =
    .next ((s.wired c l rest ts).succeed (BitVec.ofNat 32 (s.updateLen i))) :=
  (step_command (s := (s.wired c l rest ts).goto .complete) h.valid h.sched nofun nofun h.instr).trans
    (exec_update_complete h.update rfl)

end

end

/-- Every segment in order, then the completion. -/
theorem AtCompare.run_segments {i : Instr} {fuel : Nat} {s : State} (h : AtCompare i s) (hfuel : s.cur.rem ≤ fuel)
    {xs : List CompareInput} {rest : List Answer} {ts : List Word} (hxs : ∀ x ∈ xs, x.Fits s.cfg)
    (hlen : xs.length = (segmentsFrom s.cfg.page fuel s.cur).length) (htimes : s.env.times = xs.map CompareInput.time ++ ts)
    (hans : s.env.answers =
      goodAnswers (List.zipWith (s.compareRx i) (segmentsFrom s.cfg.page fuel s.cur) xs).flatten ++ rest) :
    ∃ c, Reaches (s.startWait .compare)
      ((s.wired c (List.zipWith (s.compareEvents i) (segmentsFrom s.cfg.page fuel s.cur) xs).flatten rest ts).succeed
        (BitVec.ofNat 32 (s.updateLen i))) := by
  induction fuel generalizing s xs with
  | zero => exact absurd (h.seg.pos.trans h.seg.le) (by omega)
  | succ fuel ih =>
    have hpos := h.seg.pos
    have hle := h.seg.le
    rw [segmentsFrom_cons (by omega)] at hlen hans ⊢
    obtain ⟨x, ys, rfl⟩ := List.exists_cons_of_length_eq_add_one hlen
    obtain ⟨hx, hys⟩ := List.forall_mem_cons.1 hxs
    rw [List.zipWith_cons_cons, List.flatten_cons, goodAnswers_append, List.append_assoc] at hans
    rw [List.zipWith_cons_cons, List.flatten_cons]
    have hsame : segmentsFrom s.cfg.page fuel ((s.cur.afterCompare x).advance s.cfg.page) =
        segmentsFrom s.cfg.page fuel (s.cur.advance s.cfg.page) := segmentsFrom_sameRange (by rfl)
    rw [← hsame] at hlen hans ⊢
    by_cases hrem : s.cur.rem = s.cur.segLen
    · rw [segmentsFrom_nil (c := (s.cur.afterCompare x).advance s.cfg.page) (Nat.sub_eq_zero_of_le hrem.le)] at hlen hans ⊢
      obtain rfl := List.eq_nil_of_length_eq_zero (Nat.succ.inj hlen)
      rw [List.zipWith_nil_left, List.flatten_nil, List.append_nil]
      refine ⟨(s.cur.afterCompare x).advance s.cfg.page, h.reaches_nextSegment hx htimes hans ?_⟩
      rw [h.nextSegment, if_pos hrem]
      exact .head (h.step_complete _ rest ts _) (.refl _)
    · have hq := h.next x (s.compareEvents i s.cur.segment x)
        (goodAnswers (List.zipWith (s.compareRx i)
          (segmentsFrom s.cfg.page fuel ((s.cur.afterCompare x).advance s.cfg.page)) ys).flatten ++ rest)
        (ys.map CompareInput.time ++ ts) hrem
      obtain ⟨c, hc⟩ := ih hq (show s.cur.rem - s.cur.segLen ≤ fuel by omega) hys (Nat.succ.inj hlen) rfl rfl
      refine ⟨c, h.reaches_nextSegment hx htimes hans ?_⟩
      rw [h.nextSegment, if_neg hrem, ← State.wired_wired]
      exact .head hq.step_waitT0 hc

/-! ### The whole run of an equal update (44_update.md R271 to R274) -/

/-- A range within one page is one segment (43_write.md R244). -/
theorem firstSegLen_inPage {c : Config} {a n : Nat} (h : a % c.page + n ≤ c.page) : firstSegLen c a n = n :=
  Nat.min_eq_right (by omega)

/-- The update command `i` of `n` bytes at its first segment, but for the first reading and the phase (60_exceptions.md R301,
43_write.md R244). -/
def State.updateStarted (i : Instr) (n : Nat) (s : State) : State :=
  ((s.setSched []).start ((encode i).setWidth 32)).firstSegment s.regs.addr.toNat (firstSegLen s.cfg s.regs.addr.toNat n) n

section
variable {i : Instr} {n : Nat} {s : State} (hi : i ∈ updateInstrs) (hv : s.cfg.valid = true) (hhas : s.cfg.hasUpdate = true)
  (hchip : s.env.chip = none) (hn : n = if i = .updateByte then 1 else s.regs.len.toNat) (hpos : 1 ≤ n)
  (hrange : s.regs.addr.toNat + n ≤ s.cfg.cap) (hbuf : i ≠ .updateByte → n ≤ s.cfg.bufBytes)
include hi hhas

theorem hostInstr_update : hostInstr s.cfg (((encode i).setWidth 32).setWidth 8) = some i := by
  simp only [List.mem_cons, List.not_mem_nil, or_false] at hi
  rw [setWidth_encode]
  rcases hi with rfl | rfl | rfl <;> exact if_pos hhas

include hv hchip hpos hrange hbuf

theorem atCompare_updateStarted (hfree : s.env.busFree = true) : AtCompare i (s.updateStarted i n) where
  valid := hv
  instr := hostInstr_update hi hhas
  waits := waitsFor_update hi
  sched := rfl
  free := hfree
  chip := hchip
  update := hi
  seg := by
    obtain ⟨hpage, hlen, hnext⟩ := firstSeg_fits (a := s.regs.addr.toNat) (valid_page hv).1 hpos
    refine ⟨hlen, Nat.min_le_right _ _, hrange, hpage, hnext, fun hb => ?_⟩
    have hcmd : (s.updateStarted i n).command = some i := (hostInstr_decodes (hostInstr_update hi hhas)).1
    rw [hcmd, isByteCommand_update hi] at hb
    exact (Nat.zero_add n).trans_le (hbuf (of_decide_eq_false hb))
  data := rfl

include hn

/-- From the CMD write to the first poll; the one segment of a byte and of a page command has all their bytes. -/
theorem step_update (hpage : i = .updatePage → s.regs.addr.toNat % s.cfg.page + n ≤ s.cfg.page) (hp : s.phase = .idle)
    (hinit : s.initDone = true)
    (hs : s.env.sched = [.host (.write s.cfg.hostBase (lanesOf ((encode i).setWidth 32)))]) :
    step s = .next ((s.updateStarted i n).startWait .compare) := by
  let p := (s.setSched []).start ((encode i).setWidth 32)
  have hfits : i ∈ [Instr.writeByte, .updateByte] ∨ n ≤ s.cfg.bufBytes := by
    by_cases hbyte : i = .updateByte
    · exact .inl (by simp [hbyte])
    · exact .inr (hbuf hbyte)
  have hkeep : p.env.keepBefore = p.env := (Env.noChip (e := p.env) hchip s.cfg []).1
  have hexec : exec i p = .next ((s.updateStarted i n).startWait .compare) := by
    refine (segmentCommandsStart i .compare p n (firstSegLen s.cfg s.regs.addr.toNat n) hv rfl hinit setWidth_encode
      (.inr ⟨hi, rfl⟩) ?_ hpos hrange hfits).trans (by rw [hkeep]; rfl)
    simp only [List.mem_cons, List.not_mem_nil, or_false] at hi
    rcases hi with rfl | rfl | rfl
    · obtain rfl : n = 1 := hn
      exact .inl ⟨by decide, rfl, firstSegLen_inPage (Nat.mod_lt _ (valid_page hv).1)⟩
    · exact .inr (.inr ⟨by decide, hn, rfl⟩)
    · exact .inr (.inl ⟨by decide, hn, firstSegLen_inPage (hpage rfl), hpage rfl⟩)
  rw [step_cmd hv hs, cmdStep_start (s := s.setSched []) hp (hostInstr_update hi hhas), hexec]

end

/-- Settles O58: the CMD write, and from the first wait on the equal segments, one after another. -/
theorem identicalUpdateSkipsTheWrite : Obligations.IdenticalUpdateSkipsTheWrite := by
  intro i s a n xs ts rest hi hv hhas hp hinit hfree hchip hs ha hn hpos hrange hpage hbuf hxs hlen htimes hans
  subst ha
  have hsame : segmentsFrom s.cfg.page n (s.updateStarted i n).cur = segments s.cfg s.regs.addr.toNat n :=
    segmentsFrom_sameRange (by rfl)
  have hstart := step_update hi hv hhas hchip hn hpos hrange hbuf hpage hp hinit hs
  rw [← hsame] at hlen hans ⊢
  obtain ⟨c, k, hk⟩ := (atCompare_updateStarted hi hv hhas hchip hpos hrange hbuf hfree).run_segments (fuel := n) le_rfl hxs hlen
    htimes hans
  have hcount : (s.updateStarted i n).updateLen i = n := hn.symm
  rw [hcount] at hk
  exact ⟨k + 1, _, (runSteps_succ hstart).trans hk, rfl, rfl, rfl, rfl, rfl, rfl, rfl, rfl⟩

end Sys2Proof.Machine
end

section
/-! PROOFS. Completion with an error (spec/60_exceptions.md R302 to R305, R308, R310): a command at a failed point, and the checks of a
command in their order, each with what it leaves where it fails. -/

namespace Sys2Proof.Machine

/-! ### A failed point (60_exceptions.md R303) -/

section
variable {body done : State → State} {c : ErrCode} {s : State}

theorem runFrames_of_failing (hp : s.phase = .failing c) : runFrames body done s = .next (s.raiseErr c) := by
  simp only [runFrames, hp]

theorem runWaiting_of_failing (hp : s.phase = .failing c) : runWaiting body done s = .next (s.raiseErr c) := by
  simp only [runWaiting, hp]

end

/-- Settles O15: with or without a wait, a failed point raises its error. -/
theorem failedCommandCompletes : Obligations.FailedCommandCompletes := by
  intro i s c hi hp
  obtain ⟨body, done, h | h⟩ := exec_bus hi <;> rw [h]
  · exact runFrames_of_failing hp
  · exact runWaiting_of_failing hp

/-! ### The checks (60_exceptions.md R304, R305, R308, R310) -/

/-- What a fault leaves of its command (R310). -/
theorem State.raiseFault_eq (c : Cause) (s : State) : s.raiseFault c = { s with
    regs := { s.regs with result := 0, err := c.err }, fault := some (s.fault.getD c), phase := .idle } := by
  rw [State.raiseFault, recordFault_eq]
  rfl

section
variable {k : State → State} {s : State}

theorem State.requireInit_fails (h : s.initDone = false) : s.requireInit k = s.raiseFault .notInit :=
  if_neg (Bool.eq_false_iff.1 h)

theorem State.requireThat_fails {b : Bool} (h : b = false) : s.requireThat b k = s.raiseErr .precondition :=
  if_neg (Bool.eq_false_iff.1 h)

theorem State.requireBuf_fails (h : s.cfg.bufBytes < s.cLen) : s.requireBuf k = s.raiseFault .bufRange := if_pos h

theorem State.unlessEmpty_empty (h : s.cLen = 0) : s.unlessEmpty k = s.succeed 0 := if_pos h

end

/-! ### RequireInit (60_exceptions.md R308) -/

/-- The first check of a command with bus activity is RequireInit, with a wait among what follows it or not. -/
theorem exec_bus_requiresInit {i : Instr} (hi : isBusCommand i = true) :
    ∃ k done, (∀ s, exec i s = runFrames (·.requireInit k) done s) ∨ ∀ s, exec i s = runWaiting (·.requireInit k) done s := by
  cases i with
  | readStatus | isReady | writeEnable | writeDisable => exact ⟨_, _, .inl fun _ => rfl⟩
  | readByte | readBlock | writeByte | writeBlock | writePage | updateByte | updateBlock | updatePage =>
    exact ⟨_, _, .inr fun _ => rfl⟩
  | _ => exact nomatch hi

theorem exec_bus_check {i : Instr} {s : State} (hi : isBusCommand i = true) (hp : s.phase = .check) :
    ∃ k, exec i s = .next (s.requireInit k) := by
  obtain ⟨k, done, h | h⟩ := exec_bus_requiresInit hi
  · exact ⟨k, (h s).trans (runFrames_of_check hp)⟩
  · exact ⟨k, (h s).trans (runWaiting_of_check hp)⟩

/-- Settles O16: RequireInit fails first of all, and the first step of the four other commands has no check. -/
theorem busCommandsRequireInit : Obligations.BusCommandsRequireInit := by
  refine ⟨fun i s hi hp hinit => ?_, fun i => ?_, fun i s hi hp => ?_⟩
  · obtain ⟨k, hexec⟩ := exec_bus_check hi hp
    rw [hexec, State.requireInit_fails hinit, State.raiseFault_eq]
    rfl
  · cases i with
    | init | deinit | getCapacity | getPageSize
    | wireRead | wireReadA8 | wireWrite | wireWriteA8 | wireRdsr | wireWren | wireWrdi | wireWrsr =>
      exact iff_of_false nofun (by decide)
    | _ => exact iff_of_true rfl (by decide)
  · obtain ⟨hcap, hpage, -⟩ := capacityAndPageSize s hp
    obtain ⟨hcap', hpage', -⟩ := capacityAndPageSize { s with initDone := !s.initDone } hp
    simp only [List.mem_cons, List.not_mem_nil, or_false] at hi
    rcases hi with rfl | rfl | rfl | rfl
    · exact ⟨_, initTakesClockAndPin.1 s hp, initTakesClockAndPin.1 { s with initDone := !s.initDone } hp, rfl⟩
    · exact ⟨_, deinitReleasesPin.1 s hp, deinitReleasesPin.1 { s with initDone := !s.initDone } hp, rfl⟩
    · exact ⟨_, hcap, hcap', rfl⟩
    · exact ⟨_, hpage, hpage', rfl⟩

/-! ### Ranges and lengths (60_exceptions.md R305, R310, 92 D18) -/

section
variable {i : Instr} {s : State} (hp : s.phase = .check) (hinit : s.initDone = true)
include hp hinit

theorem exec_byte_checksRange (hi : i ∈ Instr.readByte :: byteInstrs) :
    ∃ k, exec i s = .next (s.requireThat (inRange s.cfg s.cAddr 1) k) := by
  rcases List.mem_cons.1 hi with rfl | hi
  · exact ⟨_, by rw [exec, execReadByte, runWaiting_of_check hp, State.requireInit_done hinit]⟩
  · exact ⟨_, by rw [exec_byteInstr hi, execWriteByte, runWaiting_of_check hp, State.requireInit_done hinit]⟩

theorem exec_block_checksRange (hi : i ∈ Instr.readBlock :: blockInstrs) :
    ∃ k, exec i s = .next (s.requireThat (inRange s.cfg s.cAddr s.cLen) (·.requireBuf (·.unlessEmpty k))) := by
  rcases List.mem_cons.1 hi with rfl | hi
  · exact ⟨_, by rw [exec, execReadBlock, runWaiting_of_check hp, State.requireInit_done hinit]⟩
  · exact ⟨_, by rw [exec_blockInstr hi, execWriteBlock, runWaiting_of_check hp, State.requireInit_done hinit]⟩

theorem exec_page_checksRange (hi : i ∈ pageInstrs) :
    ∃ k, exec i s = .next (s.requireThat (pageCheck s.cfg s.cAddr s.cLen) (·.requireBuf (·.unlessEmpty k))) :=
  ⟨_, by rw [exec_pageInstr hi, execWritePage, runWaiting_of_check hp, State.requireInit_done hinit]⟩

end

theorem inRange_false {c : Config} {a n : Nat} (h : c.cap < a + n) : inRange c a n = false :=
  decide_eq_false (Nat.not_le.2 h)

theorem pageCheck_false {c : Config} {a n : Nat} (h : c.cap < a + n ∨ c.page < a % c.page + n) : pageCheck c a n = false :=
  decide_eq_false fun ⟨hcap, hpage⟩ => h.elim (Nat.not_lt.2 hcap) (Nat.not_lt.2 hpage)

/-- Settles O17: the range check follows RequireInit, and what it raises changes RESULT and ERR alone. -/
theorem outOfRangeRequestFails : Obligations.OutOfRangeRequestFails := by
  rintro i s hp hinit (⟨hi, hrange⟩ | ⟨hi, hrange⟩ | ⟨hi, hrange⟩)
  · obtain ⟨k, hexec⟩ := exec_byte_checksRange hp hinit hi
    exact hexec.trans (congrArg _ (State.requireThat_fails (inRange_false hrange)))
  · obtain ⟨k, hexec⟩ := exec_block_checksRange hp hinit hi
    exact hexec.trans (congrArg _ (State.requireThat_fails (inRange_false hrange)))
  · obtain ⟨k, hexec⟩ := exec_page_checksRange hp hinit hi
    exact hexec.trans (congrArg _ (State.requireThat_fails (pageCheck_false hrange)))

/-- A block or page command whose range passes goes on to the checks of its length. -/
theorem exec_checksLength {i : Instr} {s : State} (hp : s.phase = .check) (hinit : s.initDone = true)
    (hi : i ∈ Instr.readBlock :: blockInstrs ∨ i ∈ pageInstrs ∧ s.cAddr % s.cfg.page + s.cLen ≤ s.cfg.page)
    (hrange : s.cAddr + s.cLen ≤ s.cfg.cap) : ∃ k, exec i s = .next (s.requireBuf (·.unlessEmpty k)) := by
  rcases hi with hi | ⟨hi, hpage⟩
  · obtain ⟨k, hexec⟩ := exec_block_checksRange hp hinit hi
    exact ⟨k, by rw [hexec, State.requireRange_fits hrange]⟩
  · obtain ⟨k, hexec⟩ := exec_page_checksRange hp hinit hi
    have hcheck : pageCheck s.cfg s.cAddr s.cLen = true := decide_eq_true ⟨hrange, hpage⟩
    exact ⟨k, by rw [hexec, State.requireThat_holds hcheck]⟩

/-- Settles O18: after the range check, the length is compared with BUF, and then with 0. -/
theorem longAndEmptyRequests : Obligations.LongAndEmptyRequests := by
  intro i s hp hinit hi hrange
  obtain ⟨k, hexec⟩ := exec_checksLength hp hinit hi hrange
  refine ⟨fun hlong => ?_, fun hlen => ?_⟩
  · rw [hexec, State.requireBuf_fails hlong, State.raiseFault_eq]
    rfl
  · have hempty : s.cLen = 0 := congrArg BitVec.toNat hlen
    rw [hexec, State.requireBuf_fits (hempty.trans_le (Nat.zero_le _)), State.unlessEmpty_empty hempty]
    rfl

end Sys2Proof.Machine
end

section
/-! PROOFS. Reset (spec/70_reset_and_hazards.md R340, R341, spec/10_state.md R56): what it leaves of the block, and of an attached
chip. -/

namespace Sys2Proof.Machine

/-! ### The block (R340, R56) -/

theorem step_reset {s : State} {r : List Event} (hv : s.cfg.valid = true) (hs : s.env.sched = .reset :: r) :
    step s = .next (s.setSched r).warmReset := by
  simp only [step, hv, hs, if_true]

/-- RDATA = 0 reads as a ready chip with every other field 0, wherever the layout puts them (10_state.md R45). -/
theorem srDecode_zero (l : SrLayout) : srDecode l 0 = 1 := by
  simp [srDecode, chipReady]

theorem State.afterReset_statusWord (c : Config) (e : Env) : (State.afterReset c e).statusWord = 0 := by
  simp [State.statusWord, State.afterReset, State.busy, fcauseBits, ErrCode.code]

@[simp] theorem State.warmReset_sched (s : State) : s.warmReset.env.sched = s.env.sched := by
  simp only [State.warmReset, State.afterReset, Env.abandon]
  split
  · split <;> rfl
  · rfl

/-! ### The attached chip (R341) -/

theorem State.warmReset_chip_idle {s : State} (hp : s.phase = .idle) : s.warmReset.env.chip = s.env.chip := by
  simp [State.warmReset, State.afterReset, busy_false.2 hp]

theorem State.warmReset_chip_none {s : State} (h : s.env.chip = none) : s.warmReset.env.chip = none := by
  simp [State.warmReset, State.afterReset, (Env.noChip h s.cfg _).2.2, h]

theorem State.warmReset_chip_running {s : State} {q : Responder} (h : s.env.chip = some q) (hp : s.phase ≠ .idle) :
    s.warmReset.env.chip = some (q.abandoned s.env.draws s.env.before s.writeRange) := by
  simp [State.warmReset, State.afterReset, busy_true.2 hp, Env.abandon_chip h]

/-! ### The write range of the running command (R341) -/

/-- The new bytes of a command that writes the array: `cData`, or the first bytes of BUF (43_write.md R242, R243, R245). -/
def State.rangeBytes (s : State) : List Byte :=
  if isByteCommand s.command then [s.lat.data] else (List.range s.cLen).map s.bufByte

theorem State.rangeBytes_length (s : State) : s.rangeBytes.length = if isByteCommand s.command then 1 else s.cLen := by
  unfold State.rangeBytes
  split <;> simp

theorem State.rangeBytes_get {s : State} {j : Nat} (hj : j < s.rangeBytes.length) :
    s.rangeBytes[j]? = some (if isByteCommand s.command then s.lat.data else s.bufByte j) := by
  rw [State.rangeBytes_length] at hj
  unfold State.rangeBytes
  split at hj
  · obtain rfl : j = 0 := by omega
    simp [*]
  · simp [*]

theorem State.writeRange_empty {s : State} (h : s.phase = .check ∨ writesArray s.command = false) : s.writeRange = [] := by
  unfold State.writeRange
  rcases h with h | h
  · rw [h]
  · split <;> simp [h]

/-- Past its checks a command that writes the array has its new bytes as its write range. -/
theorem State.writeRange_running {s : State} (hidle : s.phase ≠ .idle) (hcheck : s.phase ≠ .check)
    (hw : writesArray s.command = true) : s.writeRange = bytesFrom s.cAddr s.rangeBytes := by
  have hbytes : s.writeRange = if isByteCommand s.command then [(s.cAddr, s.lat.data)]
      else bytesFrom s.cAddr ((List.range s.cLen).map s.bufByte) := by
    unfold State.writeRange
    split <;> simp_all
  rw [hbytes, State.rangeBytes]
  split <;> rfl

/-! ### The array after an abandoned command (R341) -/

/-- `arrayByte_mixed_inside` where the old bytes are not those of the array stored over. -/
theorem arrayByte_mixed_old_or_new {m : Memory} {n a j : Nat} {old : Nat → Byte} {d : List Byte} {b : Byte}
    (h : d[j]? = some b) :
    arrayByte (m.setAll (mixed n old (bytesFrom a d))) (a + j) = old (a + j) ∨
      arrayByte (m.setAll (mixed n old (bytesFrom a d))) (a + j) = b := by
  rcases arrayByte_mixed (m := m) (l := bytesFrom a d) (n := n) (old := old) (a + j) with ⟨hnone, -⟩ | ⟨v, hv, hbyte⟩
  · exact absurd rfl (hnone (a + j, b) (mem_bytesFrom.2 ⟨j, rfl, h⟩))
  · obtain ⟨k, hk, hd⟩ := mem_bytesFrom.1 hv
    obtain rfl : j = k := by omega
    obtain rfl := Option.some.inj (hd.symm.trans h)
    exact hbyte.symm

section
variable {s : State} {q : Responder} {n : Nat} {before : Memory}

/-- A command with nothing to write leaves every byte as the chip's pending write cycle makes it. -/
theorem Responder.abandoned_byteAt_noRange (h : s.phase = .check ∨ writesArray s.command = false) (x : Nat) :
    (q.abandoned n before s.writeRange).byteAt x = q.endCycle.byteAt x := by
  rw [State.writeRange_empty h]
  rfl

/-- A command that writes the array leaves the bytes outside its range as the chip's pending write cycle makes them. -/
theorem Responder.abandoned_byteAt_outside (hidle : s.phase ≠ .idle) (hw : writesArray s.command = true) {x : Nat}
    (hx : x < s.cAddr ∨ s.cAddr + s.rangeBytes.length ≤ x) :
    (q.abandoned n before s.writeRange).byteAt x = q.endCycle.byteAt x := by
  by_cases hcheck : s.phase = .check
  · exact Responder.abandoned_byteAt_noRange (.inl hcheck) x
  · rw [State.writeRange_running hidle hcheck hw]
    exact arrayByte_mixed_outside hx

/-- Past its checks a command that writes the array leaves each byte of its range old or new. -/
theorem Responder.abandoned_byteAt_inside (hidle : s.phase ≠ .idle) (hcheck : s.phase ≠ .check)
    (hw : writesArray s.command = true) {j : Nat} (hj : j < s.rangeBytes.length) :
    (q.abandoned n before s.writeRange).byteAt (s.cAddr + j) = arrayByte before (s.cAddr + j) ∨
      (q.abandoned n before s.writeRange).byteAt (s.cAddr + j) =
        if isByteCommand s.command then s.lat.data else s.bufByte j := by
  rw [State.writeRange_running hidle hcheck hw]
  exact arrayByte_mixed_old_or_new (State.rangeBytes_get hj)

end

/-- Settles O21: the reset state by evaluation, and the chip as `Responder.abandoned` of the command's write range. -/
theorem resetValues : Obligations.ResetValues := by
  intro s r hv hs
  refine ⟨_, step_reset hv hs, rfl, rfl, State.afterReset_statusWord _ _, srDecode_zero _, rfl, rfl, rfl, rfl, rfl, fun _ => rfl,
    State.warmReset_sched _, fun hchip => State.warmReset_chip_none hchip,
    fun hp => State.warmReset_chip_idle (s := s.setSched r) hp, fun q hq hidle => ?_⟩
  refine ⟨_, State.warmReset_chip_running (s := s.setSched r) hq hidle, rfl, rfl, rfl, rfl,
    Responder.abandoned_byteAt_noRange, ?_⟩
  rintro hw n rfl
  have hlen := s.rangeBytes_length
  exact ⟨fun x hx => Responder.abandoned_byteAt_outside hidle hw (hlen ▸ hx),
    fun hcheck j hj => Responder.abandoned_byteAt_inside hidle hcheck hw (hlen ▸ hj)⟩

end Sys2Proof.Machine
end
